-- ==== Sys2Proof/Word.lean ====
section
/-! DEFINITION. The words of the engine: the fixed widths of spec/00_scope.md R11 and the color of one unit. -/

namespace Sys2Proof

/-- A command word or a result word (R70, R80). -/
abbrev Word := BitVec 64

/-- An 8-bit channel level or 8-bit hue, 0 to 255 (R11). -/
abbrev Level := BitVec 8

/-- A linear 10-bit brightness, 0 to 1023 (R11). -/
abbrev Intensity := BitVec 10

/-- A reading of the clock source in milliseconds (R11). -/
abbrev Millis := BitVec 32

/-- The levels of one physical unit: three independent 8-bit channels (R21). -/
structure Rgb8 where
  r : Level
  g : Level
  b : Level
deriving DecidableEq, Repr, Inhabited

/-- A unit that is turned off (R132). -/
def Rgb8.off : Rgb8 := ⟨0, 0, 0⟩

/-- The ordered sequence of unit levels that is pushed to the pixel sink, unit 0 first (R83). -/
abbrev Frame := List Rgb8

end Sys2Proof
end

