-- ==== Sys2Proof/Syntax.lean ====
section
/-! DEFINITION. The ten commands (spec/30_encoding.md R71) and the written form an assembler reads (R84, R85). -/

namespace Sys2Proof

/-- A command of the engine: one constructor per row of spec/opcode_table.json, each operand at the width of its
field (R71, R72). -/
inductive Instr where
  /-- SETRGB r, g, b (R130). -/
  | setrgb (r g b : BitVec 16)
  /-- SETHV hue, val (R131). -/
  | sethv (hue : BitVec 8) (val : BitVec 16)
  /-- ALLOFF (R132). -/
  | alloff
  /-- SETGAMMA en (R133). -/
  | setgamma (en : Bool)
  /-- CFGSWP start, stop, step, ivl (R172). -/
  | cfgswp (start stop step : BitVec 8) (ivl : BitVec 32)
  /-- ENSWP en (R173). -/
  | enswp (en : Bool)
  /-- RSTSWP (R174). -/
  | rstswp
  /-- POLL off (R177). -/
  | poll (off : BitVec 8)
  /-- PROG (R178). -/
  | prog
  /-- HV2RGB h, v (R134). -/
  | hv2rgb (h v : BitVec 16)
deriving DecidableEq, Repr

/-- A command as a programmer writes it: operands are integers, which may be too large for their field (R84).
The last five are the pseudo-commands of R85. -/
inductive Written where
  | setrgb (r g b : Nat)
  | sethv (hue value : Nat)
  | alloff
  | setgamma (en : Nat)
  | cfgswp (start stop step interval : Nat)
  | enswp (en : Nat)
  | rstswp
  | poll (offset : Nat)
  | prog
  | hv2rgb (h v : Nat)
  /-- `GAMMA.ON` -/
  | gammaOn
  /-- `GAMMA.OFF` -/
  | gammaOff
  /-- `SWEEP.ON` -/
  | sweepOn
  /-- `SWEEP.OFF` -/
  | sweepOff
  /-- `OFF` -/
  | off
deriving DecidableEq, Repr

/-- The written form of a command. -/
def Instr.written : Instr → Written
  | .setrgb r g b => .setrgb r.toNat g.toNat b.toNat
  | .sethv hue val => .sethv hue.toNat val.toNat
  | .alloff => .alloff
  | .setgamma en => .setgamma en.toNat
  | .cfgswp start stop step ivl => .cfgswp start.toNat stop.toNat step.toNat ivl.toNat
  | .enswp en => .enswp en.toNat
  | .rstswp => .rstswp
  | .poll off => .poll off.toNat
  | .prog => .prog
  | .hv2rgb h v => .hv2rgb h.toNat v.toNat

end Sys2Proof
end

