-- ==== Sys2Proof/WellFormed.lean ====
section
/-! DEFINITION. Well-formedness: every operand fits the width of its field (spec/30_encoding.md R84). -/

namespace Sys2Proof

/-- Operand `x` fits a field of `w` bits. -/
abbrev fitsField (w x : Nat) : Bool := decide (x < 2 ^ w)

/-- The assembler's check of R84: 16 bits for `r g b value h v`, 8 bits for `hue start stop step offset`, 32 bits
for `interval`, 1 bit for `en`. A value above its LEGAL range (`SETRGB 2000, 0, 0`) fits, and the engine clamps it. -/
def Written.fits : Written → Bool
  | .setrgb r g b => fitsField 16 r && fitsField 16 g && fitsField 16 b
  | .sethv hue value => fitsField 8 hue && fitsField 16 value
  | .setgamma en => fitsField 1 en
  | .cfgswp start stop step interval =>
      fitsField 8 start && fitsField 8 stop && fitsField 8 step && fitsField 32 interval
  | .enswp en => fitsField 1 en
  | .poll offset => fitsField 8 offset
  | .hv2rgb h v => fitsField 16 h && fitsField 16 v
  | .alloff => true
  | .rstswp => true
  | .prog => true
  | .gammaOn => true
  | .gammaOff => true
  | .sweepOn => true
  | .sweepOff => true
  | .off => true

/-- A command is well formed when each operand, read as the integer it stands for, fits its field. The operands of
`Instr` have exactly their fields' widths (R71), so every command is well formed (`Instr.wellFormed_all`). -/
abbrev Instr.WellFormed (i : Instr) : Prop := i.written.fits = true

end Sys2Proof
end

