-- ==== Sys2Proof/Decode.lean ====
section
/-! DEFINITION. The decoder (spec/30_encoding.md R70 to R77), total on 64-bit words and rejecting by name; after it
the encoder, the opcode table of spec/opcode_table.json, and the assembler of R84 and R85. -/

namespace Sys2Proof

/-- Why a word is no command (R75). The engine answers ERR_ILLEGAL in both cases (R211). -/
inductive DecodeError where
  /-- The opcode is 0x00 or 0x0B to 0xFF. -/
  | unassignedOpcode (op : BitVec 8)
  /-- The opcode is assigned and a bit that R71 reserves is set. -/
  | reservedBitSet (op : BitVec 8)
deriving DecidableEq, Repr

/-- `cmd[lo+len-1 : lo]` (R12). -/
def field (cmd : Word) (lo len : Nat) : BitVec len := cmd.extractLsb' lo len

/-- The opcode `cmd[63:56]` (R70). -/
def opcodeOf (cmd : Word) : BitVec 8 := field cmd 56 8

/-- Answer `i` when the reserved bits `cmd[lo+len-1 : lo]` are all zero, else reject the word (R74, R75). -/
def unlessReserved (cmd : Word) (lo len : Nat) (i : Instr) : Except DecodeError Instr :=
  if field cmd lo len = 0 then .ok i else .error (.reservedBitSet (opcodeOf cmd))

/-- Decoding of a command word, total on every 64-bit word (R74). -/
def decode (cmd : Word) : Except DecodeError Instr :=
  match (opcodeOf cmd).toNat with
  | 0x01 => unlessReserved cmd 48 8 (.setrgb (field cmd 32 16) (field cmd 16 16) (field cmd 0 16))
  | 0x02 => unlessReserved cmd 24 32 (.sethv (field cmd 16 8) (field cmd 0 16))
  | 0x03 => unlessReserved cmd 0 56 .alloff
  | 0x04 => unlessReserved cmd 1 55 (.setgamma (cmd.getLsbD 0))
  | 0x05 => .ok (.cfgswp (field cmd 48 8) (field cmd 40 8) (field cmd 32 8) (field cmd 0 32))
  | 0x06 => unlessReserved cmd 1 55 (.enswp (cmd.getLsbD 0))
  | 0x07 => unlessReserved cmd 0 56 .rstswp
  | 0x08 => unlessReserved cmd 8 48 (.poll (field cmd 0 8))
  | 0x09 => unlessReserved cmd 0 56 .prog
  | 0x0A => unlessReserved cmd 32 24 (.hv2rgb (field cmd 16 16) (field cmd 0 16))
  | _ => .error (.unassignedOpcode (opcodeOf cmd))

/-- The word of a command, laid out as the patterns of R73. -/
def encode : Instr → Word
  | .setrgb r g b => 0x01#8 ++ 0#8 ++ r ++ g ++ b
  | .sethv hue val => 0x02#8 ++ 0#32 ++ hue ++ val
  | .alloff => 0x03#8 ++ 0#56
  | .setgamma en => 0x04#8 ++ 0#55 ++ BitVec.ofBool en
  | .cfgswp start stop step ivl => 0x05#8 ++ start ++ stop ++ step ++ ivl
  | .enswp en => 0x06#8 ++ 0#55 ++ BitVec.ofBool en
  | .rstswp => 0x07#8 ++ 0#56
  | .poll off => 0x08#8 ++ 0#48 ++ off
  | .prog => 0x09#8 ++ 0#56
  | .hv2rgb h v => 0x0A#8 ++ 0#24 ++ h ++ v

/-- A row of spec/opcode_table.json: a word is of the row when `word AND mask = match` (R74). -/
structure OpcodeRow where
  mnemonic : String
  pattern : Word
  mask : Word
deriving DecidableEq, Repr

/-- `cmd AND mask = match` (R74). -/
def OpcodeRow.matches (row : OpcodeRow) (cmd : Word) : Bool := cmd &&& row.mask == row.pattern

/-- The ten rows of spec/opcode_table.json, in its order. -/
def opcodeTable : List OpcodeRow :=
  [⟨"SETRGB", 0x0100000000000000, 0xFFFF000000000000⟩,
   ⟨"SETHV", 0x0200000000000000, 0xFFFFFFFFFF000000⟩,
   ⟨"ALLOFF", 0x0300000000000000, 0xFFFFFFFFFFFFFFFF⟩,
   ⟨"SETGAMMA", 0x0400000000000000, 0xFFFFFFFFFFFFFFFE⟩,
   ⟨"CFGSWP", 0x0500000000000000, 0xFF00000000000000⟩,
   ⟨"ENSWP", 0x0600000000000000, 0xFFFFFFFFFFFFFFFE⟩,
   ⟨"RSTSWP", 0x0700000000000000, 0xFFFFFFFFFFFFFFFF⟩,
   ⟨"POLL", 0x0800000000000000, 0xFFFFFFFFFFFFFF00⟩,
   ⟨"PROG", 0x0900000000000000, 0xFFFFFFFFFFFFFFFF⟩,
   ⟨"HV2RGB", 0x0A00000000000000, 0xFFFFFFFF00000000⟩]

/-- The command a written line stands for (R84, R85): none when an operand does not fit its field. -/
def assemble (line : Written) : Option Instr :=
  if line.fits then
    some (match line with
      | .setrgb r g b => .setrgb (BitVec.ofNat 16 r) (BitVec.ofNat 16 g) (BitVec.ofNat 16 b)
      | .sethv hue value => .sethv (BitVec.ofNat 8 hue) (BitVec.ofNat 16 value)
      | .alloff => .alloff
      | .setgamma en => .setgamma (en == 1)
      | .cfgswp start stop step interval =>
          .cfgswp (BitVec.ofNat 8 start) (BitVec.ofNat 8 stop) (BitVec.ofNat 8 step) (BitVec.ofNat 32 interval)
      | .enswp en => .enswp (en == 1)
      | .rstswp => .rstswp
      | .poll offset => .poll (BitVec.ofNat 8 offset)
      | .prog => .prog
      | .hv2rgb h v => .hv2rgb (BitVec.ofNat 16 h) (BitVec.ofNat 16 v)
      | .gammaOn => .setgamma true
      | .gammaOff => .setgamma false
      | .sweepOn => .enswp true
      | .sweepOff => .enswp false
      | .off => .alloff)
  else none

/-- The commands that open the host macro `SWEEP_WITH_DELAY start, stop, step, pause, v` (R85). After them the host
repeats `POLL 0` until the outcome is Finished: that loop is the host's. -/
def sweepWithDelay (start stop step pause v : Nat) : List Written :=
  [.sethv start v, .cfgswp start stop step pause, .enswp 1]

/-- The commands of the host macro `SWEEP_INTENSITY_WITH_DELAY hue, v0, v1, dv, pause` for `dv ≥ 1` (R85): one SETHV
for each of `v0, v0+dv, ...` up to `v1`. The pause between them is the host's own delay. -/
def sweepIntensityWithDelay (hue v0 v1 dv : Nat) : List Written :=
  if v1 < v0 then [] else (List.range ((v1 - v0) / dv + 1)).map fun k => .sethv hue (v0 + k * dv)

/-- The 64-bit word whose low `nbits` bits are `w`'s, every bit above them zero. -/
def tableWord (nbits w : Nat) : Word := BitVec.ofNat 64 (w % 2 ^ nbits)

/-- The command the decoder reads from a word numbered as spec/opcode_table.json numbers it: one 64-bit word, bit 0
its least significant (R12, R70). -/
def decodeTableWord (nbits w : Nat) : Option Instr :=
  match decode (tableWord nbits w) with
  | .ok i => some i
  | .error _ => none

end Sys2Proof
end

