-- ==== Sys2Proof/Machine/Binary32.lean ====
section
/-! DEFINITION. The binary32 primitives of PROG (spec/42_sweep.md R175): conversion of an integer, division and
multiplication, each rounded once to nearest, ties to even, computed exactly on natural numbers. -/

namespace Sys2Proof.Machine

/-- The unit in which magnitudes are counted: the least positive binary32 value is `1 / 2^149`. -/
def ulpExp : Nat := 149

/-- `rne32` of `num / den`, for `den > 0`, with the given sign: the 32-bit encoding of the nearest binary32 value, the
even one on a tie (R175). With `t` the exponent of the last place (0 for subnormals), the significand `q` is
`num / den * 2^149 / 2^t` rounded, and the encoding of a magnitude is `t * 2^23 + q`; a carry out of the significand
moves into the exponent by itself, and a value too large becomes infinity. -/
def rne32 (negative : Bool) (num den : Nat) : BitVec 32 :=
  let scaled := num * 2 ^ ulpExp
  let t := Nat.log2 (scaled / den) - 23
  let d := den * 2 ^ t
  let q := scaled / d
  let r := scaled % d
  let rounded := if d < 2 * r ∨ (2 * r = d ∧ q % 2 = 1) then q + 1 else q
  BitVec.ofBool negative ++ BitVec.ofNat 31 (min (t * 2 ^ 23 + rounded) 0x7F800000)

/-- The sign of a binary32 value. -/
def signOf (x : BitVec 32) : Bool := x.getLsbD 31

/-- The magnitude of a finite binary32 value, counted in units of `1 / 2^149`. -/
def magnitude (x : BitVec 32) : Nat :=
  let e := x.toNat / 2 ^ 23 % 256
  let f := x.toNat % 2 ^ 23
  if e = 0 then f else (2 ^ 23 + f) * 2 ^ (e - 1)

/-- `f32(n)`: the binary32 value of an integer (R175). -/
def f32 (n : Int) : BitVec 32 := rne32 (decide (n < 0)) n.natAbs 1

/-- Binary32 division of finite operands by a nonzero divisor, rounded once (R175). PROG calls it on nothing else. -/
def div32 (x y : BitVec 32) : BitVec 32 := rne32 (signOf x ^^ signOf y) (magnitude x) (magnitude y)

/-- Binary32 multiplication of finite operands, rounded once (R175). -/
def mul32 (x y : BitVec 32) : BitVec 32 :=
  rne32 (signOf x ^^ signOf y) (magnitude x * magnitude y) (2 ^ ulpExp * 2 ^ ulpExp)

/-- The binary32 value 100.0 (R175). -/
def hundred32 : BitVec 32 := 0x42C80000

/-- The binary32 default quiet NaN (R175, R212). -/
def quietNaN32 : BitVec 32 := 0x7FC00000

/-- `rne32(rne32(f32(n) / f32(d)) * 100.0)` for `d ≠ 0` (R178). -/
def percent32 (n d : Int) : BitVec 32 := mul32 (div32 (f32 n) (f32 d)) hundred32

end Sys2Proof.Machine
end

