-- ==== Sys2Proof/Config.lean ====
section
/-! DEFINITION. What an implementation fixes: the parameters of spec/00_scope.md section 4. -/

namespace Sys2Proof.Config

/-- GAMMA_LUT (R9): some monotone non-decreasing table on 0 to 1023, which one being open. The law
`G(0) = 0` of R101 is added where the table is read, in `Machine.gammaOf`. Log entry 8. -/
opaque gammaTable : Fin 1024 →o Fin 1024

/-- HSV8_TO_RGB8 (R10): the 8-bit (hue, saturation, level) conversion of a unit. Nothing is assumed of it
(R105). Log entry 9. -/
opaque hsv8ToRgb8 (hue saturation level : Level) : Rgb8

/-- The reference configuration's N_UNITS (R8). Only the reset state uses it: every operation takes the number
of units from the state it works on. Log entry 6. -/
def referenceUnits : Nat := 4

end Sys2Proof.Config
end

