-- ==== Sys2Proof/Machine/State.lean ====
section
/-! DEFINITION. The state of the engine (spec/10_state.md R20), the host's inputs and the observed outputs as plain
data (spec/00_scope.md R4), the state after reset (spec/70_reset_and_hazards.md R240), and the reasons a step stops. -/

namespace Sys2Proof.Machine

/-- What the host does at the engine's inputs (R4). -/
inductive HostInput where
  /-- `rst` is asserted and released (R240). -/
  | reset
  /-- The command word `cmd` is presented with the clock sample `now` (R5). -/
  | command (cmd : Word) (now : Millis)
deriving DecidableEq, Repr

/-- The complete architectural state (R20), then the interface signals of R4 held as data. -/
structure State where
  /-- UNIT[0..N_UNITS-1], unit 0 first (R21, R34). Its length is N_UNITS (R8). -/
  units : List Rgb8
  /-- GAMMA_EN (R22). -/
  gammaEn : Bool
  /-- HUE (R23). -/
  hue : BitVec 8
  /-- INTENSITY, linear (R24). -/
  intensity : Intensity
  /-- SW_START (R25). -/
  swStart : BitVec 8
  /-- SW_STOP (R25). -/
  swStop : BitVec 8
  /-- SW_STEP (R25). -/
  swStep : BitVec 8
  /-- SW_INTERVAL (R26). -/
  swInterval : Millis
  /-- SW_LAST (R27). -/
  swLast : Millis
  /-- SW_CUR (R28). -/
  swCur : BitVec 8
  /-- SW_EN, true = Enabled (R29). -/
  swEn : Bool
  /-- The clock sample of the current command (R4, R170). The model's own field, log entry 2. -/
  now : Millis
  /-- Host inputs not yet taken, the next one first (R4, R57). The model's own field, log entry 1. -/
  inputs : List HostInput
  /-- The result words returned, oldest first (R78, R253). The model's own field, log entry 3. -/
  results : List Word
  /-- The frames emitted, oldest first (R54, R253). The model's own field, log entry 3. -/
  frames : List Frame
deriving DecidableEq, Repr

/-- N_UNITS (R8): the number of units of the fixture this state belongs to. -/
def State.nUnits (s : State) : Nat := s.units.length

/-- The state of a fixture of `n` units after reset: every element zero (R240). -/
def State.resetOf (n : Nat) : State where
  units := List.replicate n Rgb8.off
  gammaEn := false
  hue := 0
  intensity := 0
  swStart := 0
  swStop := 0
  swStep := 0
  swInterval := 0
  swLast := 0
  swCur := 0
  swEn := false
  now := 0
  inputs := []
  results := []
  frames := []

/-- The reference configuration right after reset (R8, R240): nothing presented, nothing returned, nothing emitted. -/
def State.reset : State := State.resetOf Config.referenceUnits

/-- Why a step stops with a fault. The engine has no fault: no trap and no error ends a run (R210, R217), so this type
has no constructor and no step can answer one. Safe. -/
inductive Fault : Type
deriving DecidableEq, Repr

/-- Why a step gives no meaning. -/
inductive Refusal where
  /-- The arm of an instruction without a meaning would raise it. No arm does: all ten commands have one. Safe. -/
  | notModelled (mnemonic : String)
  /-- `step` raises it on a state of no units: N_UNITS = 0 is not admitted (R8; 93_implementation_defined.md U7).
  Safe: the model stops. -/
  | noUnits
deriving DecidableEq, Repr

end Sys2Proof.Machine
end

