-- ==== Sys2Proof/Machine/Operands.lean ====
section
/-! DEFINITION. What happens to an operand on its way in: the ingress clamps and the gamma gate
(spec/40_datapath.md R100 to R102), and the elapsed time (spec/42_sweep.md R176). -/

namespace Sys2Proof.Machine

/-- `clamp10(x) = min(x, 1023)` of a 16-bit intensity field (R100). -/
def clamp10 (x : BitVec 16) : Intensity := BitVec.ofNat 10 (min x.toNat 1023)

/-- `clamp3071(x) = min(x, 3071)` of the 16-bit wheel hue of HV2RGB (R100). -/
def clamp3071 (h : BitVec 16) : Nat := min h.toNat 3071

/-- A gamma lookup in a monotone table, with `G(0) = 0` (R101). Every lookup that obeys the laws of R101 is
`gammaOf` of some table, so no further law is assumed (stated as `Obligations.GammaTableObeysExactlyItsLaws`). -/
def gammaOf (table : Fin 1024 →o Fin 1024) (x : Intensity) : Intensity :=
  if x = 0 then 0 else BitVec.ofFin (table x.toFin)

/-- `G(x) = GAMMA_LUT(x)` (R9, R101). -/
def gammaLut (x : Intensity) : Intensity := gammaOf Config.gammaTable x

/-- The gamma gate `gc`: through GammaTable when gamma mode is on (R102). -/
def gammaGate (gammaEn : Bool) (x : Intensity) : Intensity := if gammaEn then gammaLut x else x

/-- `elapsed = (now - SW_LAST) mod 2^32` (R176). -/
def elapsed (s : State) : Millis := s.now - s.swLast

end Sys2Proof.Machine
end

