-- ==== Sys2Proof/Machine/Datapath.lean ====
section
/-! DEFINITION. The ladder encoder (spec/40_datapath.md R103), the 8-bit hue path of a unit (R105, R107), the color
wheel of HV2RGB (spec/41_color_engine.md R134) and the flat view of a frame (spec/30_encoding.md R83). -/

namespace Sys2Proof.Machine

/-- `full` of a ladder pass over `n` units, after the defensive clamp to `n - 1` (R103). -/
def ladderFull (v : Intensity) (n : Nat) : Nat := min (v.toNat / 256) (n - 1)

/-- `rem` of a ladder pass (R103). -/
def ladderRem (v : Intensity) : Level := BitVec.ofNat 8 (v.toNat % 256)

/-- `L[i]`, the level a ladder pass of `v` over `n` units gives unit `i` (R103). -/
def ladderLevel (v : Intensity) (n i : Nat) : Level :=
  if i < ladderFull v n then 255 else if i = ladderFull v n then ladderRem v else 0

/-- `LADDER(v, n)` (R103). -/
def ladder (v : Intensity) (n : Nat) : List Level := (List.range n).map (ladderLevel v n)

/-- The units of WRITE_RGB: three independent ladder passes (R106). -/
def rgbUnits (r g b : Intensity) (n : Nat) : List Rgb8 :=
  (List.range n).map fun i => ⟨ladderLevel r n i, ladderLevel g n i, ladderLevel b n i⟩

/-- `H8(h, 255, l)`: a unit at hue `h`, full saturation and level `l` (R105). -/
def hueUnit (h : Level) (l : Level) : Rgb8 := Config.hsv8ToRgb8 h 255 l

/-- Unit `i` of WRITE_HV for the gamma-gated value `vv`: fully on below `full`, the remainder at `full` (written even
when it is 0), off above (R107). -/
def hvUnit (h : Level) (vv : Intensity) (n i : Nat) : Rgb8 :=
  if i < ladderFull vv n then hueUnit h 255 else if i = ladderFull vv n then hueUnit h (ladderRem vv) else Rgb8.off

/-- The units of WRITE_HV (R107). -/
def hvUnits (h : Level) (vv : Intensity) (n : Nat) : List Rgb8 := (List.range n).map (hvUnit h vv n)

/-- The segment index `t` of a clamped wheel hue (R134). -/
def wheelSegment (hc : Nat) : Nat := min (hc / 1023) 2

/-- The capped position `pe` of a clamped wheel hue in its segment (R134). -/
def wheelPosition (hc : Nat) : Nat := min (hc - wheelSegment hc * 1023) 1023

/-- `down`: the channel that falls from full (R134). -/
def rampDown (pe vc : Nat) : Intensity := BitVec.ofNat 10 ((1023 - pe) * vc / 1023)

/-- `up`: the channel that rises from 0 (R134). -/
def rampUp (pe vc : Nat) : Intensity := BitVec.ofNat 10 (pe * vc / 1023)

/-- The 10-bit (R, G, B) of a clamped wheel hue and value (R134): red to green, green to blue, blue to red. -/
def wheelRgb (hc : Nat) (vc : Intensity) : Intensity × Intensity × Intensity :=
  let down := rampDown (wheelPosition hc) vc.toNat
  let up := rampUp (wheelPosition hc) vc.toNat
  match wheelSegment hc with
  | 0 => (down, up, 0)
  | 1 => (0, down, up)
  | _ => (up, 0, down)

/-- One unit as 24 bits: R high, then G, then B (R83). -/
def unitBits (u : Rgb8) : BitVec 24 := u.r ++ u.g ++ u.b

/-- A frame as one flat word, unit 0 in the least significant 24 bits (R83). -/
def frameWord : Frame → Nat
  | [] => 0
  | u :: rest => (unitBits u).toNat + 2 ^ 24 * frameWord rest

end Sys2Proof.Machine
end

