-- ==== Sys2Proof/Machine/Flags.lean ====
section
/-! DEFINITION. The engine has no flags (spec/10_state.md R32). What a command reports stands in its result word:
the status, the outcome of POLL and the color of HV2RGB (spec/30_encoding.md R80 to R82). -/

namespace Sys2Proof.Machine

/-- The status of a result word (R81). -/
inductive Status where
  | ok
  | errDiv0
  | errIllegal
deriving DecidableEq, Repr

/-- The status codes (R81). -/
def statusCode : Status → BitVec 8
  | .ok => 0x00
  | .errDiv0 => 0x01
  | .errIllegal => 0x02

/-- The outcome of a POLL (R82). -/
inductive StepOutcome where
  | idle
  | stepped
  | finished
  | waiting
deriving DecidableEq, Repr

/-- The outcome codes, in the source's listing order (R82). -/
def outcomeCode : StepOutcome → BitVec 2
  | .idle => 0
  | .stepped => 1
  | .finished => 2
  | .waiting => 3

/-- `result(status, payload)`: the status in bits 63 to 56, the payload in bits 55 to 0 (R80). -/
def resultWord (status : Status) (payload : BitVec 56) : Word := statusCode status ++ payload

/-- The payload of a POLL: the outcome code in bits 1 to 0 (R80). -/
def outcomePayload (o : StepOutcome) : BitVec 56 := 0#54 ++ outcomeCode o

/-- The payload of PROG: a binary32 value in bits 31 to 0 (R80). -/
def floatPayload (bits : BitVec 32) : BitVec 56 := 0#24 ++ bits

/-- The payload of HV2RGB: R, G, B in bits 29 to 20, 19 to 10 and 9 to 0 (R80). -/
def rgbPayload (r g b : Intensity) : BitVec 56 := 0#26 ++ r ++ g ++ b

end Sys2Proof.Machine
end

