-- ==== Sys2Proof/Machine/Ops.lean ====
section
/-! DEFINITION. The named operations over the state that the commands share: returning a result, emitting a frame, the
unit writers of spec/40_datapath.md R106 and R107, stamping the clock, `raise Illegal` (spec/60_exceptions.md R211),
and the reset of spec/70_reset_and_hazards.md R240. The engine has no memory (R50) and no trap, so taking an error is
`raiseIllegal` and there is no return from one (R216, R217). -/

namespace Sys2Proof.Machine

/-- `result(status, payload)`: return the command's result word (R80). -/
def State.answer (s : State) (status : Status) (payload : BitVec 56) : State :=
  { s with results := s.results ++ [resultWord status payload] }

/-- `Emit()`: push the frame built from the units to the sink (R14, R53, R83). -/
def State.emit (s : State) : State := { s with frames := s.frames ++ [s.units] }

/-- WRITE_RGB of three gamma-gated channels: write every unit, then emit (R106). -/
def State.writeRgb (s : State) (r g b : Intensity) : State :=
  State.emit { s with units := rgbUnits r g b s.nUnits }

/-- WRITE_HV of a hue and a linear value: record both, write every unit from one ladder pass of the gamma-gated value,
then emit (R107). -/
def State.writeHv (s : State) (h : BitVec 8) (v : Intensity) : State :=
  State.emit { s with hue := h, intensity := v, units := hvUnits h (gammaGate s.gammaEn v) s.nUnits }

/-- Turn every unit off, then emit (R132). -/
def State.writeOff (s : State) : State := State.emit { s with units := List.replicate s.nUnits Rgb8.off }

/-- Stamp the clock sample: `SW_LAST <- now` (R27). -/
def State.stamp (s : State) : State := { s with swLast := s.now }

/-- `raise Illegal`: the result ERR_ILLEGAL with payload 0, no register written, nothing emitted (R75, R211). -/
def State.raiseIllegal (s : State) : State := s.answer .errIllegal 0

/-- Reset: every register takes its reset value, no result is returned and nothing is emitted (R240, R241). What the
host still presents and what it has already seen are not the engine's, and stay. -/
def State.takeReset (s : State) : State :=
  { State.resetOf s.nUnits with now := s.now, inputs := s.inputs, results := s.results, frames := s.frames }

end Sys2Proof.Machine
end

