-- ==== Sys2Proof/Machine/ColorEngine.lean ====
section
/-! DEFINITION. The ColorEngine commands (spec/41_color_engine.md R130 to R134). -/

namespace Sys2Proof.Machine

/-- SETRGB r, g, b (R130): clamp and gamma-gate each channel, WRITE_RGB, OK. -/
def execSetrgb (r g b : BitVec 16) (s : State) : Host.Outcome State Fault Refusal :=
  let gc := fun x => gammaGate s.gammaEn (clamp10 x)
  .next ((s.writeRgb (gc r) (gc g) (gc b)).answer .ok 0)

/-- SETHV hue, val (R131): WRITE_HV of the hue and the clamped value, OK. -/
def execSethv (hue : BitVec 8) (val : BitVec 16) (s : State) : Host.Outcome State Fault Refusal :=
  .next ((s.writeHv hue (clamp10 val)).answer .ok 0)

/-- ALLOFF (R132): every unit off, a frame, OK. -/
def execAlloff (s : State) : Host.Outcome State Fault Refusal :=
  .next (s.writeOff.answer .ok 0)

/-- SETGAMMA en (R133): GAMMA_EN only; the units are not recomputed and nothing is emitted. -/
def execSetgamma (en : Bool) (s : State) : Host.Outcome State Fault Refusal :=
  .next (State.answer { s with gammaEn := en } .ok 0)

/-- HV2RGB h, v (R134): a pure conversion; no state, no gamma, no frame. -/
def execHv2rgb (h v : BitVec 16) (s : State) : Host.Outcome State Fault Refusal :=
  let rgb := wheelRgb (clamp3071 h) (clamp10 v)
  .next (s.answer .ok (rgbPayload rgb.1 rgb.2.1 rgb.2.2))

end Sys2Proof.Machine
end

