-- ==== Sys2Proof/Machine/SweepController.lean ====
section
/-! DEFINITION. The SweepController commands (spec/42_sweep.md R172 to R178). -/

namespace Sys2Proof.Machine

/-- CFGSWP start, stop, step, ivl (R172): all seven sweep registers; the sweep is Disabled and stamped. -/
def execCfgswp (start stop step : BitVec 8) (ivl : BitVec 32) (s : State) : Host.Outcome State Fault Refusal :=
  let configured : State :=
    { s with swStart := start, swStop := stop, swStep := step, swInterval := ivl, swCur := start, swEn := false }
  .next (configured.stamp.answer .ok 0)

/-- ENSWP en (R173): enabling stamps the clock, also when already Enabled; disabling does not. -/
def execEnswp (en : Bool) (s : State) : Host.Outcome State Fault Refusal :=
  if en then .next ((State.stamp { s with swEn := true }).answer .ok 0)
  else .next (State.answer { s with swEn := false } .ok 0)

/-- RSTSWP (R174): back to the start hue, stamped; SW_EN is unchanged. -/
def execRstswp (s : State) : Host.Outcome State Fault Refusal :=
  .next ((State.stamp { s with swCur := s.swStart }).answer .ok 0)

/-- `nh = SW_CUR + SW_STEP`, a 9-bit sum that does not wrap (R177). -/
def nextHue (s : State) : Nat := s.swCur.toNat + s.swStep.toNat

/-- The tick of an elapsed interval (R177): stamp, then step to the next hue and apply it with the offset at INTENSITY
(Stepped), or disable the sweep (Finished). -/
def sweepTick (off : BitVec 8) (s : State) : State :=
  if nextHue s ≤ s.swStop.toNat then
    let stepped := s.stamp.writeHv (BitVec.ofNat 8 (nextHue s + off.toNat)) s.intensity
    State.answer { stepped with swCur := BitVec.ofNat 8 (nextHue s) } .ok (outcomePayload .stepped)
  else State.answer { s.stamp with swEn := false } .ok (outcomePayload .finished)

/-- POLL off (R177): Idle when Disabled, Waiting until MORE than the interval has elapsed, else the tick. -/
def execPoll (off : BitVec 8) (s : State) : Host.Outcome State Fault Refusal :=
  if s.swEn then
    if (elapsed s).toNat ≤ s.swInterval.toNat then .next (s.answer .ok (outcomePayload .waiting))
    else .next (sweepTick off s)
  else .next (s.answer .ok (outcomePayload .idle))

/-- PROG (R178): progress in percent, or ERR_DIV0 with a quiet NaN when the sweep has no extent (R212). -/
def execProg (s : State) : Host.Outcome State Fault Refusal :=
  let n : Int := (s.swCur.toNat : Int) - s.swStart.toNat
  let d : Int := (s.swStop.toNat : Int) - s.swStart.toNat
  if d = 0 then .next (s.answer .errDiv0 (floatPayload quietNaN32))
  else .next (s.answer .ok (floatPayload (percent32 n d)))

end Sys2Proof.Machine
end

