-- ==== Sys2Proof/Machine/Dispatch.lean ====
section
/-! DEFINITION. One arm per command: the meaning of each (spec/30_encoding.md R71). -/

namespace Sys2Proof.Machine

def exec (i : Instr) (s : State) : Host.Outcome State Fault Refusal :=
  match i with
  | .setrgb r g b => Sys2Proof.Machine.execSetrgb r g b s
  | .sethv hue val => Sys2Proof.Machine.execSethv hue val s
  | .alloff => Sys2Proof.Machine.execAlloff s
  | .setgamma en => Sys2Proof.Machine.execSetgamma en s
  | .cfgswp start stop step ivl => Sys2Proof.Machine.execCfgswp start stop step ivl s
  | .enswp en => Sys2Proof.Machine.execEnswp en s
  | .rstswp => Sys2Proof.Machine.execRstswp s
  | .poll off => Sys2Proof.Machine.execPoll off s
  | .prog => Sys2Proof.Machine.execProg s
  | .hv2rgb h v => Sys2Proof.Machine.execHv2rgb h v s

end Sys2Proof.Machine
end

