-- ==== Sys2Proof/Machine/Fetch.lean ====
section
/-! DEFINITION. Taking the host's next input. The engine has no program counter and fetches nothing: the host presents
each command word with its clock sample (spec/10_state.md R31; spec/00_scope.md R5). -/

namespace Sys2Proof.Machine

/-- What the engine finds at its inputs. -/
inductive Fetched where
  /-- The host presents nothing: the engine waits (R242). -/
  | waiting
  /-- `rst` is asserted; `s` is the state with that input taken (R240). -/
  | reset (s : State)
  /-- A command word; `s` is the state with that input taken and its clock sample in `now` (R5). -/
  | command (cmd : Word) (s : State)
deriving DecidableEq, Repr

/-- Take the next host input, in the order the host presents them (R57). -/
def fetch (s : State) : Fetched :=
  match s.inputs with
  | [] => .waiting
  | .reset :: rest => .reset { s with inputs := rest }
  | .command cmd now :: rest => .command cmd { s with inputs := rest, now := now }

end Sys2Proof.Machine
end

