-- ==== Sys2Proof/Machine/Step.lean ====
section
/-! DEFINITION. One step of the engine (spec/00_scope.md R5): the next host input is taken; a command word is decoded
and executed, an illegal word is answered with ERR_ILLEGAL (spec/30_encoding.md R75), `rst` resets (spec/
70_reset_and_hazards.md R240), and with no input the engine waits (R242). -/

namespace Sys2Proof.Machine

/-- One step. A fixture of no units is refused (R8). -/
def step (s : State) : Host.Outcome State Fault Refusal :=
  if s.nUnits = 0 then .refused .noUnits
  else
    match fetch s with
    | .waiting => .next s
    | .reset t => .next t.takeReset
    | .command cmd t =>
      match decode cmd with
      | .ok i => exec i t
      | .error _ => .next t.raiseIllegal

/-- The word `w` of `nbits` bits presented by the host as the very next command, at the clock sample last seen. -/
def State.withFetchWord (s : State) (nbits w : Nat) : State :=
  { s with inputs := .command (tableWord nbits w) s.now :: s.inputs }

end Sys2Proof.Machine
end

