-- ==== Sys2Proof/Safety.lean ====
section
/-! DEFINITION. The terms in which claims about the engine are stated: bit ranges, illegal words, the invariants of
spec/10_state.md R37, and runs of several host inputs. -/

namespace Sys2Proof

/-- `x[hi:lo]`: the unsigned value of bits `hi` down to `lo` (spec/00_scope.md R12). -/
def bits (x : Word) (hi lo : Nat) : Nat := x.toNat / 2 ^ lo % 2 ^ (hi + 1 - lo)

/-- The illegal words of R75: an unassigned opcode, or a reserved bit of an assigned one set (R71). -/
def IllegalWord (cmd : Word) : Prop :=
  bits cmd 63 56 = 0x00 ∨ 0x0B ≤ bits cmd 63 56
    ∨ (bits cmd 63 56 = 0x01 ∧ bits cmd 55 48 ≠ 0)
    ∨ (bits cmd 63 56 = 0x02 ∧ bits cmd 55 24 ≠ 0)
    ∨ (bits cmd 63 56 = 0x03 ∧ bits cmd 55 0 ≠ 0)
    ∨ (bits cmd 63 56 = 0x04 ∧ bits cmd 55 1 ≠ 0)
    ∨ (bits cmd 63 56 = 0x06 ∧ bits cmd 55 1 ≠ 0)
    ∨ (bits cmd 63 56 = 0x07 ∧ bits cmd 55 0 ≠ 0)
    ∨ (bits cmd 63 56 = 0x08 ∧ bits cmd 55 8 ≠ 0)
    ∨ (bits cmd 63 56 = 0x09 ∧ bits cmd 55 0 ≠ 0)
    ∨ (bits cmd 63 56 = 0x0A ∧ bits cmd 55 32 ≠ 0)

/-- `cmd` has the opcode of command `i`, and each operand of `i` is the field of `cmd` that R71 gives it. -/
def ReadsFrom (cmd : Word) : Instr → Prop
  | .setrgb r g b => bits cmd 63 56 = 0x01 ∧ r.toNat = bits cmd 47 32 ∧ g.toNat = bits cmd 31 16 ∧ b.toNat = bits cmd 15 0
  | .sethv hue val => bits cmd 63 56 = 0x02 ∧ hue.toNat = bits cmd 23 16 ∧ val.toNat = bits cmd 15 0
  | .alloff => bits cmd 63 56 = 0x03
  | .setgamma en => bits cmd 63 56 = 0x04 ∧ en.toNat = bits cmd 0 0
  | .cfgswp start stop step ivl =>
      bits cmd 63 56 = 0x05 ∧ start.toNat = bits cmd 55 48 ∧ stop.toNat = bits cmd 47 40 ∧ step.toNat = bits cmd 39 32
        ∧ ivl.toNat = bits cmd 31 0
  | .enswp en => bits cmd 63 56 = 0x06 ∧ en.toNat = bits cmd 0 0
  | .rstswp => bits cmd 63 56 = 0x07
  | .poll off => bits cmd 63 56 = 0x08 ∧ off.toNat = bits cmd 7 0
  | .prog => bits cmd 63 56 = 0x09
  | .hv2rgb h v => bits cmd 63 56 = 0x0A ∧ h.toNat = bits cmd 31 16 ∧ v.toNat = bits cmd 15 0

namespace Machine

/-- The invariants of R37: the fixture has a unit (R8), the current hue is not below the start, it is in the inclusive
range when the range is not empty, and it stands at the start when the start is above the stop. -/
structure SweepInv (s : State) : Prop where
  hasUnit : 1 ≤ s.nUnits
  startLeCur : s.swStart.toNat ≤ s.swCur.toNat
  curLeStop : s.swStart.toNat ≤ s.swStop.toNat → s.swCur.toNat ≤ s.swStop.toNat
  curAtStart : s.swStop.toNat < s.swStart.toNat → s.swCur = s.swStart

/-- Every frame the sink has seen holds the levels of all the units of this fixture (R53, R83). -/
def FramesWhole (s : State) : Prop := ∀ f ∈ s.frames, f.length = s.nUnits

/-- The sweep is Enabled and its interval has elapsed: `elapsed > SW_INTERVAL` (R171, R176). -/
def TickElapsed (s : State) : Prop :=
  s.swEn = true ∧ s.swInterval.toNat < (s.now - s.swLast).toNat

/-- The units are a dimmer at hue `h` for the gamma-gated value `vv` over `n` units: `full` units fully on, one partial
unit at the remainder, the others off (R105, R107). -/
def LadderedAtHue (us : List Rgb8) (n : Nat) (h : Level) (vv : Intensity) : Prop :=
  us.length = n ∧ ∀ i < n, us[i]? = some
    (if i < min (vv.toNat / 256) (n - 1) then Config.hsv8ToRgb8 h 255 255
     else if i = min (vv.toNat / 256) (n - 1) then Config.hsv8ToRgb8 h 255 (BitVec.ofNat 8 (vv.toNat % 256))
     else ⟨0, 0, 0⟩)

/-- The units hold three independent ladder passes of the gamma-gated channels over `n` units (R106). -/
def LadderedRgb (us : List Rgb8) (n : Nat) (r g b : Intensity) : Prop :=
  us.length = n ∧ ∀ i < n, us[i]? = some
    ⟨(ladder r n)[i]?.getD 0, (ladder g n)[i]?.getD 0, (ladder b n)[i]?.getD 0⟩

/-- The commands and states in which the clock sample is not read (R170). -/
def IgnoresClock (s : State) : Instr → Prop
  | .cfgswp _ _ _ _ => False
  | .rstswp => False
  | .enswp en => en = false
  | .poll _ => s.swEn = false
  | .setrgb _ _ _ => True
  | .sethv _ _ => True
  | .alloff => True
  | .setgamma _ => True
  | .prog => True
  | .hv2rgb _ _ => True

/-- `k` steps of the engine, stopping at the first fault or refusal. -/
def runSteps : Nat → State → Host.Outcome State Fault Refusal
  | 0, s => .next s
  | k + 1, s =>
    match step s with
    | .next t => runSteps k t
    | .fault r => .fault r
    | .refused r => .refused r

/-- The host presents command `i` with the clock sample `now`. -/
def asInput (i : Instr) (now : Millis) : HostInput := .command (encode i) now

/-- The host polls once for each pair of a hue offset and a clock sample. -/
def polls (xs : List (BitVec 8 × Millis)) : List HostInput := xs.map fun x => asInput (.poll x.1) x.2

/-- Each clock sample is more than `interval` ms (modulo 2^32) after the one before it, the first after `last`. -/
def Ticking (interval : Millis) : Millis → List Millis → Prop
  | _, [] => True
  | last, now :: rest => interval.toNat < (now - last).toNat ∧ Ticking interval now rest

end Machine

end Sys2Proof
end

