-- ==== Sys2Proof/Certificates/Slice0/Obligations.lean ====
section
/-! DEFINITION. The statements for the provers. Each docstring names the rule of spec/ it formalises, or says that it
rests on a choice of the model's. Every register that a next state does not name is unchanged: the next state is
written as an update of the state before. The interface signals of R4 stand in the model's own fields `now`, `inputs`,
`results` and `frames` (log entries 1 to 3), so a statement about a result word or a frame speaks of those lists. -/

open Sys2Proof Sys2Proof.Machine

/-! ## Encoding -/

/-- Decoding the word of a well-formed command gives the command back, for every operand (R70 to R74). -/
def Obligations.DecodeInvertsEncode : Prop :=
  ∀ i : Instr, i.WellFormed → decode (encode i) = .ok i

/-- A word that decodes to a command is that command's word: no bit of a valid word is ignored (R71, R74). -/
def Obligations.EncodeInvertsDecode : Prop :=
  ∀ (cmd : Word) (i : Instr), decode cmd = .ok i → encode i = cmd

/-- R74: decoding is total; it rejects exactly the illegal words and otherwise reads each field from the bits the rule
gives it; a word is a valid command exactly when it matches a row of the opcode table, and then one row only. -/
def Obligations.DecodeReadsTheOpcodeTable : Prop :=
  ∀ cmd : Word,
    (IllegalWord cmd → ∃ e, decode cmd = .error e)
      ∧ (¬ IllegalWord cmd → ∃ i, decode cmd = .ok i ∧ ReadsFrom cmd i)
      ∧ ((∃ i, decode cmd = .ok i) ↔ ∃ row ∈ opcodeTable, row.matches cmd = true)
      ∧ (∀ row ∈ opcodeTable, ∀ row' ∈ opcodeTable, row.matches cmd = true → row'.matches cmd = true → row = row')

/-- Words written out from the patterns of R73 decode to the commands they stand for (95_test_vectors.md). -/
def Obligations.WordsOfTheSpecDecode : Prop :=
  decode 0x010003FF012C0000 = .ok (.setrgb 1023 300 0) ∧ decode 0x0200000000550258 = .ok (.sethv 85 600)
    ∧ decode 0x0300000000000000 = .ok .alloff ∧ decode 0x0400000000000001 = .ok (.setgamma true)
    ∧ decode 0x05000A0200000064 = .ok (.cfgswp 0 10 2 100) ∧ decode 0x0600000000000001 = .ok (.enswp true)
    ∧ decode 0x0700000000000000 = .ok .rstswp ∧ decode 0x0800000000000080 = .ok (.poll 128)
    ∧ decode 0x0900000000000000 = .ok .prog ∧ decode 0x0A00000003FE03FF = .ok (.hv2rgb 1022 1023)

/-- The assembler reads back the written form of every command; it refuses a line exactly when an operand does not fit
its field: 16 bits for `r g b value h v`, 8 bits for `hue start stop step offset`, 32 bits for `interval`, 1 bit for `en`
(R84); and the pseudo-commands stand for the commands R85 gives them. That a line is a mnemonic with integers, not
characters, is the model's choice (log entry 15). -/
def Obligations.AssemblerRefusesExactlyMisfits : Prop :=
  (∀ i : Instr, assemble i.written = some i)
    ∧ (∀ r g b, assemble (.setrgb r g b) = none ↔ ¬ (r < 2 ^ 16 ∧ g < 2 ^ 16 ∧ b < 2 ^ 16))
    ∧ (∀ hue value, assemble (.sethv hue value) = none ↔ ¬ (hue < 2 ^ 8 ∧ value < 2 ^ 16))
    ∧ (∀ en, assemble (.setgamma en) = none ↔ ¬ en < 2)
    ∧ (∀ start stop step interval, assemble (.cfgswp start stop step interval) = none ↔
        ¬ (start < 2 ^ 8 ∧ stop < 2 ^ 8 ∧ step < 2 ^ 8 ∧ interval < 2 ^ 32))
    ∧ (∀ en, assemble (.enswp en) = none ↔ ¬ en < 2)
    ∧ (∀ offset, assemble (.poll offset) = none ↔ ¬ offset < 2 ^ 8)
    ∧ (∀ h v, assemble (.hv2rgb h v) = none ↔ ¬ (h < 2 ^ 16 ∧ v < 2 ^ 16))
    ∧ assemble .alloff = some .alloff ∧ assemble .rstswp = some .rstswp ∧ assemble .prog = some .prog
    ∧ assemble .gammaOn = some (.setgamma true) ∧ assemble .gammaOff = some (.setgamma false)
    ∧ assemble .sweepOn = some (.enswp true) ∧ assemble .sweepOff = some (.enswp false)
    ∧ assemble .off = some .alloff

/-! ## One step -/

/-- A step takes the command word the host presents with its clock sample and, when the word decodes to a well-formed
command, is `exec` of that command. How inputs are held is the model's choice (log entries 1 and 2). -/
def Obligations.StepRunsTheDecodedCommand : Prop :=
  ∀ (s : State) (cmd : Word) (now : Millis) (rest : List HostInput) (i : Instr),
    s.nUnits ≠ 0 → s.inputs = .command cmd now :: rest → decode cmd = .ok i → i.WellFormed →
      step s = exec i { s with inputs := rest, now := now }

/-- R211: a word with an unassigned opcode or a set reserved bit is answered ERR_ILLEGAL with payload 0; no register is
written and nothing is emitted. -/
def Obligations.IllegalWordChangesNothing : Prop :=
  ∀ (s : State) (cmd : Word) (now : Millis) (rest : List HostInput),
    s.nUnits ≠ 0 → s.inputs = .command cmd now :: rest → IllegalWord cmd →
      step s = .next { s with inputs := rest, now := now, results := s.results ++ [0x0200000000000000] }

/-- R240: asserting `rst` executes no command and returns no result, and afterwards every state element holds its reset
value; the state the model calls reset holds them too. -/
def Obligations.ResetLeavesEveryRegisterZero : Prop :=
  (∀ (s : State) (rest : List HostInput), s.nUnits ≠ 0 → s.inputs = .reset :: rest →
    ∃ t, step s = .next t ∧ t.inputs = rest ∧ t.results = s.results ∧ t.frames = s.frames
      ∧ t.units = List.replicate s.nUnits ⟨0, 0, 0⟩ ∧ t.gammaEn = false ∧ t.hue = 0 ∧ t.intensity = 0 ∧ t.swStart = 0
      ∧ t.swStop = 0 ∧ t.swStep = 0 ∧ t.swInterval = 0 ∧ t.swLast = 0 ∧ t.swCur = 0 ∧ t.swEn = false)
    ∧ State.reset.gammaEn = false ∧ State.reset.hue = 0 ∧ State.reset.intensity = 0 ∧ State.reset.swStart = 0
    ∧ State.reset.swStop = 0 ∧ State.reset.swStep = 0 ∧ State.reset.swInterval = 0 ∧ State.reset.swLast = 0
    ∧ State.reset.swCur = 0 ∧ State.reset.swEn = false ∧ ∀ u ∈ State.reset.units, u = ⟨0, 0, 0⟩

/-- With nothing presented the engine waits (R242). That a waiting step is a next state is the model's choice (log
entry 5). -/
def Obligations.StepWaitsForTheHost : Prop :=
  ∀ s : State, s.nUnits ≠ 0 → s.inputs = [] → step s = .next s

/-- A fixture of no units is not admitted (R8); that the model's step refuses it by name is the model's choice (log
entry 7). -/
def Obligations.StepRefusesNoUnits : Prop :=
  ∀ s : State, s.nUnits = 0 → step s = .refused .noUnits

/-- No step faults, and none refuses a fixture that has a unit (R5, R8, R210). -/
def Obligations.EveryStepAnswers : Prop :=
  ∀ s : State, s.nUnits ≠ 0 → ∃ t, step s = .next t

/-- R5 and R78: one step is one command, for every command word and every clock sample; it returns exactly one result
word, and either emits nothing or emits exactly one frame, built from the units of the next state. -/
def Obligations.OneResultAndAtMostOneFrame : Prop :=
  ∀ (s : State) (cmd : Word) (now : Millis) (rest : List HostInput),
    s.nUnits ≠ 0 → s.inputs = .command cmd now :: rest →
      ∃ t res, step s = .next t ∧ t.inputs = rest ∧ t.results = s.results ++ [res]
        ∧ (t.frames = s.frames ∨ t.frames = s.frames ++ [t.units])

/-- R81 and R214: an illegal word reports ERR_ILLEGAL, PROG with SW_STOP = SW_START reports ERR_DIV0, and every other
word reports OK, clamped operands included. -/
def Obligations.StatusOfEveryWord : Prop :=
  ∀ (s : State) (cmd : Word) (now : Millis) (rest : List HostInput),
    s.nUnits ≠ 0 → s.inputs = .command cmd now :: rest →
      ∃ t res, step s = .next t ∧ t.results = s.results ++ [res]
        ∧ (IllegalWord cmd → bits res 63 56 = 0x02)
        ∧ (cmd = 0x0900000000000000 → s.swStop = s.swStart → bits res 63 56 = 0x01)
        ∧ (¬ IllegalWord cmd → ¬ (cmd = 0x0900000000000000 ∧ s.swStop = s.swStart) → bits res 63 56 = 0x00)

/-- The units change only together with a frame that shows them all (R53, R54). -/
def Obligations.UnitsChangeOnlyWithAFrame : Prop :=
  ∀ (s t : State) (cmd : Word) (now : Millis) (rest : List HostInput),
    s.inputs = .command cmd now :: rest → step s = .next t → t.units ≠ s.units → t.frames = s.frames ++ [t.units]

/-! ## Invariants -/

/-- R37: every step keeps the invariants of the sweep registers and the number of units; under them the current hue lies
in the inclusive range exactly when SW_START ≤ SW_STOP; and when SW_START > SW_STOP the first elapsed tick finishes. -/
def Obligations.StepKeepsSweepInvariant : Prop :=
  (∀ s t : State, SweepInv s → step s = .next t → SweepInv t ∧ t.nUnits = s.nUnits ∧ t.intensity.toNat ≤ 1023)
    ∧ (∀ s : State, SweepInv s →
        ((s.swStart.toNat ≤ s.swCur.toNat ∧ s.swCur.toNat ≤ s.swStop.toNat) ↔ s.swStart.toNat ≤ s.swStop.toNat))
    ∧ (∀ (s : State) (off : BitVec 8), SweepInv s → s.swStop.toNat < s.swStart.toNat → TickElapsed s →
        exec (.poll off) s = .next { s with swEn := false, swLast := s.now, results := s.results ++ [2] })

/-- The reset state meets the invariants of R37. -/
def Obligations.ResetMeetsSweepInvariant : Prop := SweepInv State.reset

/-- Every step keeps it that each frame the sink has seen holds the levels of all the units (R53, R83). The list of
frames is the model's own field (log entry 3). -/
def Obligations.StepKeepsFramesWhole : Prop :=
  FramesWhole State.reset ∧ ∀ s t : State, FramesWhole s → step s = .next t → FramesWhole t

/-! ## What a command may write, read and emit -/

/-- Each register is written only by the commands that 10_state.md R20 lists for it. -/
def Obligations.RegistersWrittenOnlyAsListed : Prop :=
  ∀ (i : Instr) (s t : State), exec i s = .next t →
    ((∀ r g b, i ≠ .setrgb r g b) → (∀ h v, i ≠ .sethv h v) → i ≠ .alloff → (∀ off, i ≠ .poll off) → t.units = s.units)
      ∧ ((∀ en, i ≠ .setgamma en) → t.gammaEn = s.gammaEn)
      ∧ ((∀ h v, i ≠ .sethv h v) → (∀ off, i ≠ .poll off) → t.hue = s.hue)
      ∧ ((∀ h v, i ≠ .sethv h v) → t.intensity = s.intensity)
      ∧ ((∀ a b c d, i ≠ .cfgswp a b c d) →
          t.swStart = s.swStart ∧ t.swStop = s.swStop ∧ t.swStep = s.swStep ∧ t.swInterval = s.swInterval)
      ∧ ((∀ a b c d, i ≠ .cfgswp a b c d) → i ≠ .enswp true → i ≠ .rstswp → (∀ off, i ≠ .poll off) →
          t.swLast = s.swLast)
      ∧ ((∀ a b c d, i ≠ .cfgswp a b c d) → i ≠ .rstswp → (∀ off, i ≠ .poll off) → t.swCur = s.swCur)
      ∧ ((∀ a b c d, i ≠ .cfgswp a b c d) → (∀ en, i ≠ .enswp en) → (∀ off, i ≠ .poll off) → t.swEn = s.swEn)

/-- SETRGB, SETHV, ALLOFF and a POLL that returns Stepped emit exactly one frame; nothing else emits (R54). -/
def Obligations.OnlyTheEmittingCommandsEmit : Prop :=
  ∀ (i : Instr) (s t : State), exec i s = .next t →
    (((∃ r g b, i = .setrgb r g b) ∨ (∃ h v, i = .sethv h v) ∨ i = .alloff
        ∨ ((∃ off, i = .poll off) ∧ t.results = s.results ++ [1])) → t.frames = s.frames ++ [t.units])
      ∧ (¬ ((∃ r g b, i = .setrgb r g b) ∨ (∃ h v, i = .sethv h v) ∨ i = .alloff
        ∨ ((∃ off, i = .poll off) ∧ t.results = s.results ++ [1])) → t.frames = s.frames)

/-- The clock sample is read only by CFGSWP, ENSWP 1, RSTSWP and an Enabled POLL (R170). -/
def Obligations.OtherCommandsIgnoreTheClock : Prop :=
  ∀ (i : Instr) (s : State) (now : Millis), IgnoresClock s i →
    ∃ t, exec i s = .next t ∧ exec i { s with now := now } = .next { t with now := now }

/-- No command reads HUE or the level of a unit: changing them before a command changes nothing after it but themselves
(R20, R21, R23). -/
def Obligations.HueAndUnitsAreNeverRead : Prop :=
  ∀ (i : Instr) (s : State) (hue : BitVec 8) (us : List Rgb8), us.length = s.nUnits →
    ∃ t hue' us', exec i s = .next t
      ∧ exec i { s with hue := hue, units := us } = .next { t with hue := hue', units := us' }
      ∧ (hue' = t.hue ∨ hue' = hue ∧ t.hue = s.hue) ∧ (us' = t.units ∨ us' = us ∧ t.units = s.units)

/-- What the host has already seen is never read: the words and frames a command adds, and every register it leaves, are
the same whatever was returned and emitted before. The two lists are the model's own fields (log entry 3). -/
def Obligations.ObservationsAreNeverRead : Prop :=
  ∀ (i : Instr) (s : State) (rs : List Word) (fs : List Frame),
    ∃ t dr df, exec i s = .next t ∧ t.results = s.results ++ dr ∧ t.frames = s.frames ++ df
      ∧ exec i { s with results := rs, frames := fs } = .next { t with results := rs ++ dr, frames := fs ++ df }

/-! ## Datapath -/

/-- R101: the gamma lookup is monotone non-decreasing, `G(0) = 0` and its range is 0 to 1023; and the model assumes no
other law: every table that obeys these is one the lookup can be. -/
def Obligations.GammaTableObeysExactlyItsLaws : Prop :=
  (∀ x y : Intensity, x.toNat ≤ y.toNat → (gammaLut x).toNat ≤ (gammaLut y).toNat)
    ∧ gammaLut 0 = 0 ∧ (∀ x : Intensity, (gammaLut x).toNat ≤ 1023)
    ∧ ∀ g : Intensity → Intensity, (∀ x y : Intensity, x.toNat ≤ y.toNat → (g x).toNat ≤ (g y).toNat) → g 0 = 0 →
        ∃ table : Fin 1024 →o Fin 1024, ∀ x, gammaOf table x = g x

/-- The ingress clamps are `min(x, 1023)` and `min(x, 3071)` (R100), and the gamma gate is the lookup exactly when gamma
mode is on (R102). -/
def Obligations.ClampsAndGammaGate : Prop :=
  (∀ x : BitVec 16, (clamp10 x).toNat = min x.toNat 1023) ∧ (∀ h : BitVec 16, clamp3071 h = min h.toNat 3071)
    ∧ ∀ x : Intensity, gammaGate true x = gammaLut x ∧ gammaGate false x = x

/-- R103: `LADDER(v, n)` has `n` levels: 255 below the clamped `full`, the remainder at it, 0 above it. -/
def Obligations.LadderLevels : Prop :=
  ∀ (v : Intensity) (n : Nat), 1 ≤ n →
    (ladder v n).length = n
      ∧ ∀ full, full = (if n ≤ v.toNat / 256 then n - 1 else v.toNat / 256) →
          (∀ i < full, (ladder v n)[i]? = some 255) ∧ (ladder v n)[full]? = some (BitVec.ofNat 8 (v.toNat % 256))
            ∧ ∀ i, full < i → i < n → (ladder v n)[i]? = some 0

/-- R104 items 2 and 4: without the clamp the levels sum to `v - v div 256`, which is monotone in `v`; full scale lights
all four units of the reference fixture. -/
def Obligations.LadderSumIsMonotone : Prop :=
  (∀ (v : Intensity) (n : Nat), v.toNat < 256 * n →
      ((ladder v n).map BitVec.toNat).sum = v.toNat - v.toNat / 256)
    ∧ (∀ (v w : Intensity) (n : Nat), v.toNat ≤ w.toNat → w.toNat < 256 * n →
      ((ladder v n).map BitVec.toNat).sum ≤ ((ladder w n).map BitVec.toNat).sum)
    ∧ ladder 1023 4 = [255, 255, 255, 255]

/-- R104 items 1 and 3: with four or more units the clamp never fires, and two values give the same levels only in the
three pairs 255/256, 511/512, 767/768. -/
def Obligations.LadderCollisions : Prop :=
  ∀ (v w : Intensity) (n : Nat), 4 ≤ n →
    v.toNat / 256 ≤ n - 1
      ∧ (v.toNat < w.toNat → (ladder v n = ladder w n ↔
          (v = 255 ∧ w = 256) ∨ (v = 511 ∧ w = 512) ∨ (v = 767 ∧ w = 768)))

/-- R104 item 5: with the clamp the last unit takes the remainder and all before it are full, which is not monotone. -/
def Obligations.LadderOnSmallFixtures : Prop :=
  (∀ (v : Intensity) (n : Nat), 1 ≤ n → 256 * n ≤ v.toNat →
      ladder v n = List.replicate (n - 1) 255 ++ [BitVec.ofNat 8 (v.toNat % 256)])
    ∧ ladder 511 2 = [255, 255] ∧ ladder 512 2 = [255, 0]

/-- The flat word of a frame has unit `i` in bits `24i+23` to `24i`, R high, then G, then B, and nothing above the last
unit (R83). -/
def Obligations.FrameFlatLayout : Prop :=
  ∀ f : Frame, frameWord f < 2 ^ (24 * f.length)
    ∧ ∀ i u, f[i]? = some u →
        frameWord f / 2 ^ (24 * i) % 2 ^ 24 = u.r.toNat * 2 ^ 16 + u.g.toNat * 2 ^ 8 + u.b.toNat

/-! ## ColorEngine commands -/

/-- SETRGB (R130, R106): each unit's channels are three ladder passes of the clamped, gamma-gated channels; one frame; OK;
nothing else written. -/
def Obligations.SetrgbWritesThreeLadders : Prop :=
  ∀ (r g b : BitVec 16) (s : State),
    ∃ us, exec (.setrgb r g b) s = .next
        { s with units := us, frames := s.frames ++ [us], results := s.results ++ [0] }
      ∧ LadderedRgb us s.nUnits
          (gammaGate s.gammaEn (BitVec.ofNat 10 (min r.toNat 1023)))
          (gammaGate s.gammaEn (BitVec.ofNat 10 (min g.toNat 1023)))
          (gammaGate s.gammaEn (BitVec.ofNat 10 (min b.toNat 1023)))

/-- SETHV (R131, R107): HUE and the clamped LINEAR value are recorded; the units are a dimmer at that hue for the
gamma-gated value; one frame; OK; nothing else written. -/
def Obligations.SethvWritesADimmer : Prop :=
  ∀ (hue : BitVec 8) (val : BitVec 16) (s : State),
    ∃ us, exec (.sethv hue val) s = .next
        { s with hue := hue, intensity := BitVec.ofNat 10 (min val.toNat 1023), units := us,
                 frames := s.frames ++ [us], results := s.results ++ [0] }
      ∧ LadderedAtHue us s.nUnits hue (gammaGate s.gammaEn (BitVec.ofNat 10 (min val.toNat 1023)))

/-- ALLOFF (R132): every unit (0,0,0), one frame, OK; nothing else written. -/
def Obligations.AlloffDarkensEveryUnit : Prop :=
  ∀ s : State, ∃ us, exec .alloff s = .next
      { s with units := us, frames := s.frames ++ [us], results := s.results ++ [0] }
    ∧ us.length = s.nUnits ∧ ∀ u ∈ us, u = ⟨0, 0, 0⟩

/-- SETGAMMA (R133): GAMMA_EN takes the operand, OK; no unit is recomputed, nothing is emitted, nothing else written. -/
def Obligations.SetgammaWritesOnlyGammaMode : Prop :=
  ∀ (en : Bool) (s : State), exec (.setgamma en) s = .next { s with gammaEn := en, results := s.results ++ [0] }

/-- HV2RGB (R134): the result word is the wheel color in bits 29 to 0; no register is written and nothing is emitted. -/
def Obligations.Hv2rgbReturnsTheWheelColor : Prop :=
  ∀ (h v : BitVec 16) (s : State) (t pe vc down up : Nat),
    t = min (min h.toNat 3071 / 1023) 2 → pe = min (min h.toNat 3071 - t * 1023) 1023 → vc = min v.toNat 1023 →
    down = (1023 - pe) * vc / 1023 → up = pe * vc / 1023 →
      ∃ w : Word, exec (.hv2rgb h v) s = .next { s with results := s.results ++ [w] }
        ∧ (t = 0 → w.toNat = down * 2 ^ 20 + up * 2 ^ 10)
        ∧ (t = 1 → w.toNat = down * 2 ^ 10 + up)
        ∧ (t = 2 → w.toNat = up * 2 ^ 20 + down)

/-- R135: the wheel is continuous at its segment boundaries: at full value the corners are as the rule lists them, and for
every value a step of the hue by 1 changes each channel by at most 1, and by nothing from 3069 on. -/
def Obligations.WheelIsContinuous : Prop :=
  wheelRgb 1022 1023 = (1, 1022, 0) ∧ wheelRgb 1023 1023 = (0, 1023, 0) ∧ wheelRgb 2045 1023 = (0, 1, 1022)
    ∧ wheelRgb 2046 1023 = (0, 0, 1023) ∧ wheelRgb 3068 1023 = (1022, 0, 1) ∧ wheelRgb 3069 1023 = (1023, 0, 0)
    ∧ wheelRgb 0 1023 = (1023, 0, 0)
    ∧ (∀ (hc : Nat) (vc : Intensity), hc < 3071 →
        ((wheelRgb hc vc).1.toNat ≤ (wheelRgb (hc + 1) vc).1.toNat + 1
          ∧ (wheelRgb (hc + 1) vc).1.toNat ≤ (wheelRgb hc vc).1.toNat + 1)
        ∧ ((wheelRgb hc vc).2.1.toNat ≤ (wheelRgb (hc + 1) vc).2.1.toNat + 1
          ∧ (wheelRgb (hc + 1) vc).2.1.toNat ≤ (wheelRgb hc vc).2.1.toNat + 1)
        ∧ ((wheelRgb hc vc).2.2.toNat ≤ (wheelRgb (hc + 1) vc).2.2.toNat + 1
          ∧ (wheelRgb (hc + 1) vc).2.2.toNat ≤ (wheelRgb hc vc).2.2.toNat + 1))
    ∧ ∀ (hc : Nat) (vc : Intensity), 3069 ≤ hc → hc ≤ 3071 → wheelRgb hc vc = (vc, 0, 0)

/-- Every wheel color stays within the value: each channel is at most `vc`, the channels sum to at most `vc`, and at least
one of them is 0 (R134: one ramps down, the next ramps up, the third is pinned to 0). -/
def Obligations.WheelStaysWithinTheValue : Prop :=
  ∀ (hc : Nat) (vc : Intensity), hc ≤ 3071 →
    (wheelRgb hc vc).1.toNat + (wheelRgb hc vc).2.1.toNat + (wheelRgb hc vc).2.2.toNat ≤ vc.toNat
      ∧ vc.toNat ≤ (wheelRgb hc vc).1.toNat + (wheelRgb hc vc).2.1.toNat + (wheelRgb hc vc).2.2.toNat + 1
      ∧ ((wheelRgb hc vc).1 = 0 ∨ (wheelRgb hc vc).2.1 = 0 ∨ (wheelRgb hc vc).2.2 = 0)

/-- R136: SETRGB followed at once by ALLOFF leaves every unit off, emits two frames (the SETRGB frame, then the all-zero
one), and leaves every other register as it was. -/
def Obligations.SetrgbThenAlloff : Prop :=
  ∀ (r g b : BitVec 16) (s : State),
    ∃ t, exec (.setrgb r g b) s = .next t ∧ t.frames = s.frames ++ [t.units]
      ∧ exec .alloff t = .next
          { s with units := List.replicate s.nUnits ⟨0, 0, 0⟩, results := s.results ++ [0, 0],
                   frames := s.frames ++ [t.units, List.replicate s.nUnits ⟨0, 0, 0⟩] }

/-! ## SweepController commands -/

/-- CFGSWP (R172): all seven sweep registers: the four operands, the start hue, Disabled, stamped; OK; no frame, nothing
else written. -/
def Obligations.CfgswpConfiguresTheSweep : Prop :=
  ∀ (start stop step : BitVec 8) (ivl : BitVec 32) (s : State),
    exec (.cfgswp start stop step ivl) s = .next
      { s with swStart := start, swStop := stop, swStep := step, swInterval := ivl, swCur := start, swEn := false,
               swLast := s.now, results := s.results ++ [0] }

/-- ENSWP (R173): enabling stamps the clock, whatever the sweep's state was; disabling stamps nothing; OK. -/
def Obligations.EnswpEnablesOrDisables : Prop :=
  ∀ s : State,
    exec (.enswp true) s = .next { s with swEn := true, swLast := s.now, results := s.results ++ [0] }
      ∧ exec (.enswp false) s = .next { s with swEn := false, results := s.results ++ [0] }

/-- RSTSWP (R174): back to the start hue, stamped, OK; SW_EN is unchanged. -/
def Obligations.RstswpRestarts : Prop :=
  ∀ s : State, exec .rstswp s = .next
    { s with swCur := s.swStart, swLast := s.now, results := s.results ++ [0] }

/-- R176: `elapsed` is the difference of the clock sample and the stamp modulo 2^32; it is right across one wrap of the
counter, and a gap of `g` ms reads as `g mod 2^32`. -/
def Obligations.ElapsedWrapsModulo : Prop :=
  (∀ s : State, (elapsed s).toNat = (s.now.toNat + 2 ^ 32 - s.swLast.toNat) % 2 ^ 32)
    ∧ (∀ (s : State) (g : Nat), s.now.toNat = (s.swLast.toNat + g) % 2 ^ 32 → (elapsed s).toNat = g % 2 ^ 32)
    ∧ ∀ s : State, s.swLast = 0xFFFFFF00 → s.now = 0x00000010 → (elapsed s).toNat = 272

/-- POLL, Idle and Waiting (R171, R177): Disabled it returns 0, Enabled with `elapsed ≤ SW_INTERVAL` it returns 3; neither
changes anything. -/
def Obligations.PollIdlesOrWaits : Prop :=
  (∀ (off : BitVec 8) (s : State), s.swEn = false → exec (.poll off) s = .next { s with results := s.results ++ [0] })
    ∧ ∀ (off : BitVec 8) (s : State), s.swEn = true → (s.now - s.swLast).toNat ≤ s.swInterval.toNat →
        exec (.poll off) s = .next { s with results := s.results ++ [3] }

/-- POLL, Stepped (R171, R177, R107): on an elapsed tick with `SW_CUR + SW_STEP ≤ SW_STOP` it stamps, advances SW_CUR,
applies the new hue plus the offset (modulo 256) at INTENSITY through the gamma gate, emits one frame and returns 1. -/
def Obligations.PollSteps : Prop :=
  ∀ (off : BitVec 8) (s : State), TickElapsed s → s.swCur.toNat + s.swStep.toNat ≤ s.swStop.toNat →
    ∃ us, exec (.poll off) s = .next
        { s with swLast := s.now, swCur := s.swCur + s.swStep, hue := s.swCur + s.swStep + off, units := us,
                 frames := s.frames ++ [us], results := s.results ++ [1] }
      ∧ LadderedAtHue us s.nUnits (s.swCur + s.swStep + off) (gammaGate s.gammaEn s.intensity)

/-- POLL, Finished (R171, R177): on an elapsed tick with the 9-bit sum `SW_CUR + SW_STEP > SW_STOP` it stamps, disables the
sweep and returns 2; SW_CUR keeps its value and nothing is emitted. -/
def Obligations.PollFinishes : Prop :=
  ∀ (off : BitVec 8) (s : State), TickElapsed s → s.swStop.toNat < s.swCur.toNat + s.swStep.toNat →
    exec (.poll off) s = .next { s with swLast := s.now, swEn := false, results := s.results ++ [2] }

/-- R82: every POLL returns one of the four outcomes, Idle 0, Stepped 1, Finished 2, Waiting 3. -/
def Obligations.PollOutcomesAreExhaustive : Prop :=
  (∀ (off : BitVec 8) (s : State), ∃ t o, exec (.poll off) s = .next t
      ∧ t.results = s.results ++ [BitVec.setWidth 64 (outcomeCode o)])
    ∧ outcomeCode .idle = 0 ∧ outcomeCode .stepped = 1 ∧ outcomeCode .finished = 2 ∧ outcomeCode .waiting = 3

/-- R212: PROG with SW_STOP = SW_START returns ERR_DIV0 with the quiet NaN and changes nothing, and no other command
raises that status. -/
def Obligations.ProgWithoutExtent : Prop :=
  (∀ s : State, s.swStop = s.swStart → exec .prog s = .next { s with results := s.results ++ [0x010000007FC00000] })
    ∧ ∀ (i : Instr) (s t : State) (res : Word), exec i s = .next t → t.results = s.results ++ [res] →
        bits res 63 56 = 0x01 → i = .prog ∧ s.swStop = s.swStart

/-- PROG (R178): the payload is the quotient of the signed differences `n` and `d`, rounded, times 100.0, rounded AGAIN;
status OK; nothing is written or emitted. The two operations on finite operands are the exact quotient and the exact
product of the magnitudes (counted in units of 2^-149, so that a product counts 2^-298), rounded once, with the exclusive
or of the signs (R175; log entry 11). For `n = 6`, `d = 10` the two roundings give 0x42700001. -/
def Obligations.ProgReturnsPercent : Prop :=
  (∀ (s : State) (n d : Int), s.swStop ≠ s.swStart → n = (s.swCur.toNat : Int) - s.swStart.toNat →
      d = (s.swStop.toNat : Int) - s.swStart.toNat →
      ∃ w : Word, exec .prog s = .next { s with results := s.results ++ [w] }
        ∧ w.toNat = (mul32 (div32 (f32 n) (f32 d)) 0x42C80000).toNat)
    ∧ (∀ x y : BitVec 32, x.toNat / 2 ^ 23 % 256 < 255 → y.toNat / 2 ^ 23 % 256 < 255 → magnitude y ≠ 0 →
        div32 x y = rne32 (decide (2 ^ 31 ≤ x.toNat) ^^ decide (2 ^ 31 ≤ y.toNat)) (magnitude x) (magnitude y))
    ∧ (∀ x y : BitVec 32, x.toNat / 2 ^ 23 % 256 < 255 → y.toNat / 2 ^ 23 % 256 < 255 →
        mul32 x y = rne32 (decide (2 ^ 31 ≤ x.toNat) ^^ decide (2 ^ 31 ≤ y.toNat))
          (magnitude x * magnitude y) (2 ^ 149 * 2 ^ 149))
    ∧ mul32 (div32 (f32 6) (f32 10)) 0x42C80000 = 0x42700001

/-- The percentage lies between 0.0 and 100.0 (as bits, which order non-negative binary32 values), is 0.0 exactly at the
start and 100.0 exactly at the stop, grows with the current hue, and is -0.0 when SW_START > SW_STOP (R178). -/
def Obligations.ProgressStaysWithinRange : Prop :=
  (∀ n d : Nat, n ≤ d → 0 < d → d ≤ 255 →
      (percent32 n d).toNat ≤ 0x42C80000 ∧ (percent32 n d = 0 ↔ n = 0) ∧ (percent32 n d = 0x42C80000 ↔ n = d))
    ∧ (∀ m n d : Nat, m ≤ n → n ≤ d → 0 < d → d ≤ 255 → (percent32 m d).toNat ≤ (percent32 n d).toNat)
    ∧ ∀ s : State, SweepInv s → s.swStop.toNat < s.swStart.toNat →
        exec .prog s = .next { s with results := s.results ++ [0x80000000] }

/-- The integers PROG converts are exact in binary32 (R175: "for |n| ≤ 255 it is exact"). -/
def Obligations.SmallIntegersAreExact : Prop :=
  ∀ n : Int, n.natAbs ≤ 255 → magnitude (f32 n) = n.natAbs * 2 ^ 149 ∧ signOf (f32 n) = decide (n < 0)

/-- Rounding is to nearest, ties to even (R175): when the result is finite, no finite binary32 value is nearer to the exact
quotient, and when another is as near, the result's significand is even. The sign is the one asked for. -/
def Obligations.RoundingIsNearestTiesToEven : Prop :=
  ∀ (neg : Bool) (num den : Nat), 0 < den →
    signOf (rne32 neg num den) = neg ∧ magnitude (rne32 neg num den) = magnitude (rne32 false num den)
      ∧ ((rne32 false num den).toNat < 0x7F800000 → ∀ y : BitVec 32, y.toNat < 0x7F800000 →
          ((magnitude (rne32 false num den) : Int) * den - num * 2 ^ 149).natAbs
              ≤ ((magnitude y : Int) * den - num * 2 ^ 149).natAbs
            ∧ (((magnitude (rne32 false num den) : Int) * den - num * 2 ^ 149).natAbs
                = ((magnitude y : Int) * den - num * 2 ^ 149).natAbs →
              y = rne32 false num den ∨ (rne32 false num den).toNat % 2 = 0))

/-! ## Sweeps over several polls -/

/-- R180: any number of POLLs on a Disabled engine each return Idle and leave every register as it was; a POLL that returns
Waiting writes nothing and emits nothing. -/
def Obligations.IdleAndWaitingPollsChangeNothing : Prop :=
  (∀ (s : State) (xs : List (BitVec 8 × Millis)) (rest : List HostInput),
      s.nUnits ≠ 0 → s.swEn = false → s.inputs = polls xs ++ rest →
        ∃ now, runSteps xs.length s = .next
          { s with inputs := rest, now := now, results := s.results ++ List.replicate xs.length 0 })
    ∧ ∀ (off : BitVec 8) (s t : State), s.swEn = true → exec (.poll off) s = .next t → t.results = s.results ++ [3] →
        t = { s with results := s.results ++ [3] }

/-- A sweep, polled at any times: SW_CUR is the start plus SW_STEP for each Stepped outcome, each of which emitted one frame;
as long as it is Enabled no POLL has returned Finished; once it is Disabled exactly one has, and exactly
`(stop - start) div step` have returned Stepped (R179, with 0 for start > stop). -/
def Obligations.SweepCountsItsSteps : Prop :=
  ∀ (s : State) (start stop step : BitVec 8) (ivl n₀ n₁ : Millis) (xs : List (BitVec 8 × Millis)),
    s.nUnits ≠ 0 →
    s.inputs = asInput (.cfgswp start stop step ivl) n₀ :: asInput (.enswp true) n₁ :: polls xs →
      ∃ t rs, runSteps (xs.length + 2) s = .next t ∧ t.results = s.results ++ [0, 0] ++ rs ∧ rs.length = xs.length
        ∧ t.swCur.toNat = start.toNat + rs.count 1 * step.toNat
        ∧ t.frames.length = s.frames.length + rs.count 1
        ∧ (t.swEn = true → rs.count 2 = 0)
        ∧ (t.swEn = false → rs.count 2 = 1
            ∧ (0 < step.toNat → rs.count 1 = (stop.toNat - start.toNat) / step.toNat))

/-- A sweep polled once per elapsed tick terminates (R179): with `k = (stop - start) div step` it returns Stepped `k` times,
emitting the hues `start + step·j` plus the offset for `j = 1..k` at INTENSITY, then Finished, leaving
`SW_CUR = start + k·step`, Disabled. -/
def Obligations.SweepTerminates : Prop :=
  ∀ (s : State) (start stop step : BitVec 8) (ivl n₀ n₁ : Millis) (xs : List (BitVec 8 × Millis)) (k : Nat),
    s.nUnits ≠ 0 → 0 < step.toNat → k = (stop.toNat - start.toNat) / step.toNat → xs.length = k + 1 →
    Ticking ivl n₁ (xs.map Prod.snd) →
    s.inputs = asInput (.cfgswp start stop step ivl) n₀ :: asInput (.enswp true) n₁ :: polls xs →
      ∃ t, runSteps (k + 3) s = .next t ∧ t.results = s.results ++ [0, 0] ++ List.replicate k 1 ++ [2]
        ∧ t.swEn = false ∧ t.swCur.toNat = start.toNat + k * step.toNat
        ∧ t.frames.length = s.frames.length + k
        ∧ ∀ j off now, j < k → xs[j]? = some (off, now) →
            ∃ us, t.frames[s.frames.length + j]? = some us
              ∧ LadderedAtHue us s.nUnits (BitVec.ofNat 8 (start.toNat + step.toNat * (j + 1) + off.toNat))
                  (gammaGate s.gammaEn s.intensity)

/-- R246: with SW_STEP = 0 and SW_START ≤ SW_STOP an Enabled sweep steps at every elapsed tick and no POLL ever returns
Finished; with SW_INTERVAL = 2^32 - 1 every POLL of an Enabled sweep returns Waiting; in both cases it stays Enabled. -/
def Obligations.SweepsThatNeverEnd : Prop :=
  (∀ (s : State) (xs : List (BitVec 8 × Millis)),
      SweepInv s → s.swEn = true → s.swStep = 0 → s.swStart.toNat ≤ s.swStop.toNat → s.inputs = polls xs →
        ∃ t rs, runSteps xs.length s = .next t ∧ t.results = s.results ++ rs ∧ t.swEn = true ∧ t.swCur = s.swCur
          ∧ (∀ w ∈ rs, w = 1 ∨ w = 3)
          ∧ (Ticking s.swInterval s.swLast (xs.map Prod.snd) → rs = List.replicate xs.length 1))
    ∧ ∀ (s : State) (xs : List (BitVec 8 × Millis)),
        s.nUnits ≠ 0 → s.swEn = true → s.swInterval.toNat = 2 ^ 32 - 1 → s.inputs = polls xs →
          ∃ t, runSteps xs.length s = .next t ∧ t.swEn = true
            ∧ t.results = s.results ++ List.replicate xs.length 3

/-- Two Stepped outcomes with only Waiting ones between them are more than SW_INTERVAL ms of clock samples apart, when the
counter does not wrap between them (R181). -/
def Obligations.StepRateIsBounded : Prop :=
  ∀ (s u : State) (xs : List (BitVec 8 × Millis)) (a b : BitVec 8) (t₁ t₂ : Millis),
    s.inputs = asInput (.poll a) t₁ :: polls xs ++ [asInput (.poll b) t₂] →
    runSteps (xs.length + 2) s = .next u →
    u.results = s.results ++ [1] ++ List.replicate xs.length 3 ++ [1] →
    t₁.toNat < t₂.toNat → s.swInterval.toNat < t₂.toNat - t₁.toNat

/-! ## The binary32 encoding -/

/-- The magnitude and the sign read from a finite binary32 encoding are the value it stands for: rounding that value gives
the same encoding back, and two non-negative encodings are ordered as their values. `1.0` and `100.0` count
`2^149` and `100 · 2^149` units of 2^-149 (R175; log entry 11). -/
def Obligations.MagnitudeReadsTheEncoding : Prop :=
  (∀ x : BitVec 32, x.toNat / 2 ^ 23 % 256 < 255 →
      rne32 (decide (2 ^ 31 ≤ x.toNat)) (magnitude x) (2 ^ 149) = x)
    ∧ (∀ x y : BitVec 32, x.toNat < 0x7F800000 → y.toNat < 0x7F800000 → x.toNat < y.toNat → magnitude x < magnitude y)
    ∧ magnitude 0x3F800000 = 2 ^ 149 ∧ magnitude 0x42C80000 = 100 * 2 ^ 149
end

