-- ==== Sys2Proof/Laws/Encode.lean ====
section
/-! SUPPORT. The encoder and the decoder's fields as arithmetic on natural numbers: what the word of each command is as
a number, and what a field reads from one. Round trips then are linear arithmetic. -/

namespace Sys2Proof.Laws

/-- Concatenation of bit vectors as arithmetic: `{a, b}` with `a` in the more significant bits (R12). -/
theorem append_toNat {m n : Nat} (a : BitVec m) (b : BitVec n) : (a ++ b).toNat = a.toNat * 2 ^ n + b.toNat := by
  rw [BitVec.toNat_append, ← Nat.shiftLeft_add_eq_or_of_lt b.isLt, Nat.shiftLeft_eq]

/-- A field as arithmetic. -/
theorem field_toNat (cmd : Word) (lo len : Nat) : (field cmd lo len).toNat = cmd.toNat / 2 ^ lo % 2 ^ len := by
  simp [field, BitVec.extractLsb'_toNat, Nat.shiftRight_eq_div_pow]

theorem opcodeOf_toNat (cmd : Word) : (opcodeOf cmd).toNat = cmd.toNat / 2 ^ 56 % 2 ^ 8 := field_toNat cmd 56 8

theorem encode_setrgb_toNat (r g b : BitVec 16) :
    (encode (.setrgb r g b)).toNat = 0x01 * 2 ^ 56 + r.toNat * 2 ^ 32 + g.toNat * 2 ^ 16 + b.toNat := by
  change (0x01#8 ++ 0#8 ++ r ++ g ++ b).toNat = _
  simp only [append_toNat, BitVec.toNat_ofNat]; omega

theorem encode_sethv_toNat (hue : BitVec 8) (val : BitVec 16) :
    (encode (.sethv hue val)).toNat = 0x02 * 2 ^ 56 + hue.toNat * 2 ^ 16 + val.toNat := by
  change (0x02#8 ++ 0#32 ++ hue ++ val).toNat = _
  simp only [append_toNat, BitVec.toNat_ofNat]; omega

theorem encode_alloff_toNat : (encode .alloff).toNat = 0x03 * 2 ^ 56 := by decide

theorem encode_setgamma_toNat (en : Bool) : (encode (.setgamma en)).toNat = 0x04 * 2 ^ 56 + en.toNat := by
  cases en <;> decide

theorem encode_cfgswp_toNat (start stop step : BitVec 8) (ivl : BitVec 32) :
    (encode (.cfgswp start stop step ivl)).toNat =
      0x05 * 2 ^ 56 + start.toNat * 2 ^ 48 + stop.toNat * 2 ^ 40 + step.toNat * 2 ^ 32 + ivl.toNat := by
  change (0x05#8 ++ start ++ stop ++ step ++ ivl).toNat = _
  simp only [append_toNat, BitVec.toNat_ofNat]; omega

theorem encode_enswp_toNat (en : Bool) : (encode (.enswp en)).toNat = 0x06 * 2 ^ 56 + en.toNat := by
  cases en <;> decide

theorem encode_rstswp_toNat : (encode .rstswp).toNat = 0x07 * 2 ^ 56 := by decide

theorem encode_poll_toNat (off : BitVec 8) : (encode (.poll off)).toNat = 0x08 * 2 ^ 56 + off.toNat := by
  change (0x08#8 ++ 0#48 ++ off).toNat = _
  simp only [append_toNat, BitVec.toNat_ofNat]; omega

theorem encode_prog_toNat : (encode .prog).toNat = 0x09 * 2 ^ 56 := by decide

theorem encode_hv2rgb_toNat (h v : BitVec 16) :
    (encode (.hv2rgb h v)).toNat = 0x0A * 2 ^ 56 + h.toNat * 2 ^ 16 + v.toNat := by
  change (0x0A#8 ++ 0#24 ++ h ++ v).toNat = _
  simp only [append_toNat, BitVec.toNat_ofNat]; omega

/-- What `unlessReserved` can answer: the command, the reserved field then being zero, or a rejection by name. -/
theorem unlessReserved_cases (cmd : Word) (lo len : Nat) (i : Instr) :
    (cmd.toNat / 2 ^ lo % 2 ^ len = 0 ∧ unlessReserved cmd lo len i = .ok i)
      ∨ (cmd.toNat / 2 ^ lo % 2 ^ len ≠ 0 ∧ unlessReserved cmd lo len i = .error (.reservedBitSet (opcodeOf cmd))) := by
  by_cases h : field cmd lo len = 0
  · exact .inl ⟨by rw [← field_toNat, h]; rfl, if_pos h⟩
  · refine .inr ⟨fun h0 => h ?_, if_neg h⟩
    exact BitVec.eq_of_toNat_eq (by rw [field_toNat, h0]; simp)

/-- A one-bit field as arithmetic. -/
theorem bit0_toNat (cmd : Word) : (cmd.getLsbD 0).toNat = cmd.toNat % 2 := by
  rw [BitVec.getLsbD, Nat.testBit_zero]
  rcases Nat.mod_two_eq_zero_or_one cmd.toNat with h | h <;> simp [h]

/-! What `decode` does with each opcode (R74). -/

section
variable {cmd : Word}

theorem decode_op1 (h : (opcodeOf cmd).toNat = 1) :
    decode cmd = unlessReserved cmd 48 8 (.setrgb (field cmd 32 16) (field cmd 16 16) (field cmd 0 16)) := by
  simp only [decode, h]

theorem decode_op2 (h : (opcodeOf cmd).toNat = 2) :
    decode cmd = unlessReserved cmd 24 32 (.sethv (field cmd 16 8) (field cmd 0 16)) := by
  simp only [decode, h]

theorem decode_op3 (h : (opcodeOf cmd).toNat = 3) :
    decode cmd = unlessReserved cmd 0 56 .alloff := by
  simp only [decode, h]

theorem decode_op4 (h : (opcodeOf cmd).toNat = 4) :
    decode cmd = unlessReserved cmd 1 55 (.setgamma (cmd.getLsbD 0)) := by
  simp only [decode, h]

theorem decode_op5 (h : (opcodeOf cmd).toNat = 5) :
    decode cmd = .ok (.cfgswp (field cmd 48 8) (field cmd 40 8) (field cmd 32 8) (field cmd 0 32)) := by
  simp only [decode, h]

theorem decode_op6 (h : (opcodeOf cmd).toNat = 6) :
    decode cmd = unlessReserved cmd 1 55 (.enswp (cmd.getLsbD 0)) := by
  simp only [decode, h]

theorem decode_op7 (h : (opcodeOf cmd).toNat = 7) :
    decode cmd = unlessReserved cmd 0 56 .rstswp := by
  simp only [decode, h]

theorem decode_op8 (h : (opcodeOf cmd).toNat = 8) :
    decode cmd = unlessReserved cmd 8 48 (.poll (field cmd 0 8)) := by
  simp only [decode, h]

theorem decode_op9 (h : (opcodeOf cmd).toNat = 9) :
    decode cmd = unlessReserved cmd 0 56 .prog := by
  simp only [decode, h]

theorem decode_op10 (h : (opcodeOf cmd).toNat = 10) :
    decode cmd = unlessReserved cmd 32 24 (.hv2rgb (field cmd 16 16) (field cmd 0 16)) := by
  simp only [decode, h]

/-- An unassigned opcode is rejected by name. -/
theorem decode_unassigned (h : (opcodeOf cmd).toNat = 0 ∨ 10 < (opcodeOf cmd).toNat) :
    decode cmd = .error (.unassignedOpcode (opcodeOf cmd)) := by
  unfold decode
  split <;> first | rfl | omega

end

end Sys2Proof.Laws
end

