-- ==== Sys2Proof/Laws/State.lean ====
section
/-! SUPPORT. One lemma per field of the state for each shared update, so that no proof unfolds a record update. -/

namespace Sys2Proof.Machine

section
variable (s : State) (status : Status) (payload : BitVec 56)

@[simp] theorem State.answer_units : (s.answer status payload).units = s.units := rfl
@[simp] theorem State.answer_gammaEn : (s.answer status payload).gammaEn = s.gammaEn := rfl
@[simp] theorem State.answer_hue : (s.answer status payload).hue = s.hue := rfl
@[simp] theorem State.answer_intensity : (s.answer status payload).intensity = s.intensity := rfl
@[simp] theorem State.answer_swStart : (s.answer status payload).swStart = s.swStart := rfl
@[simp] theorem State.answer_swStop : (s.answer status payload).swStop = s.swStop := rfl
@[simp] theorem State.answer_swStep : (s.answer status payload).swStep = s.swStep := rfl
@[simp] theorem State.answer_swInterval : (s.answer status payload).swInterval = s.swInterval := rfl
@[simp] theorem State.answer_swLast : (s.answer status payload).swLast = s.swLast := rfl
@[simp] theorem State.answer_swCur : (s.answer status payload).swCur = s.swCur := rfl
@[simp] theorem State.answer_swEn : (s.answer status payload).swEn = s.swEn := rfl
@[simp] theorem State.answer_now : (s.answer status payload).now = s.now := rfl
@[simp] theorem State.answer_inputs : (s.answer status payload).inputs = s.inputs := rfl
@[simp] theorem State.answer_results : (s.answer status payload).results = s.results ++ [resultWord status payload] := rfl
@[simp] theorem State.answer_frames : (s.answer status payload).frames = s.frames := rfl

end

section
variable (s : State)

@[simp] theorem State.emit_units : (s.emit).units = s.units := rfl
@[simp] theorem State.emit_gammaEn : (s.emit).gammaEn = s.gammaEn := rfl
@[simp] theorem State.emit_hue : (s.emit).hue = s.hue := rfl
@[simp] theorem State.emit_intensity : (s.emit).intensity = s.intensity := rfl
@[simp] theorem State.emit_swStart : (s.emit).swStart = s.swStart := rfl
@[simp] theorem State.emit_swStop : (s.emit).swStop = s.swStop := rfl
@[simp] theorem State.emit_swStep : (s.emit).swStep = s.swStep := rfl
@[simp] theorem State.emit_swInterval : (s.emit).swInterval = s.swInterval := rfl
@[simp] theorem State.emit_swLast : (s.emit).swLast = s.swLast := rfl
@[simp] theorem State.emit_swCur : (s.emit).swCur = s.swCur := rfl
@[simp] theorem State.emit_swEn : (s.emit).swEn = s.swEn := rfl
@[simp] theorem State.emit_now : (s.emit).now = s.now := rfl
@[simp] theorem State.emit_inputs : (s.emit).inputs = s.inputs := rfl
@[simp] theorem State.emit_results : (s.emit).results = s.results := rfl
@[simp] theorem State.emit_frames : (s.emit).frames = s.frames ++ [s.units] := rfl

end

section
variable (s : State) (r g b : Intensity)

@[simp] theorem State.writeRgb_units : (s.writeRgb r g b).units = rgbUnits r g b s.nUnits := rfl
@[simp] theorem State.writeRgb_gammaEn : (s.writeRgb r g b).gammaEn = s.gammaEn := rfl
@[simp] theorem State.writeRgb_hue : (s.writeRgb r g b).hue = s.hue := rfl
@[simp] theorem State.writeRgb_intensity : (s.writeRgb r g b).intensity = s.intensity := rfl
@[simp] theorem State.writeRgb_swStart : (s.writeRgb r g b).swStart = s.swStart := rfl
@[simp] theorem State.writeRgb_swStop : (s.writeRgb r g b).swStop = s.swStop := rfl
@[simp] theorem State.writeRgb_swStep : (s.writeRgb r g b).swStep = s.swStep := rfl
@[simp] theorem State.writeRgb_swInterval : (s.writeRgb r g b).swInterval = s.swInterval := rfl
@[simp] theorem State.writeRgb_swLast : (s.writeRgb r g b).swLast = s.swLast := rfl
@[simp] theorem State.writeRgb_swCur : (s.writeRgb r g b).swCur = s.swCur := rfl
@[simp] theorem State.writeRgb_swEn : (s.writeRgb r g b).swEn = s.swEn := rfl
@[simp] theorem State.writeRgb_now : (s.writeRgb r g b).now = s.now := rfl
@[simp] theorem State.writeRgb_inputs : (s.writeRgb r g b).inputs = s.inputs := rfl
@[simp] theorem State.writeRgb_results : (s.writeRgb r g b).results = s.results := rfl
@[simp] theorem State.writeRgb_frames : (s.writeRgb r g b).frames = s.frames ++ [rgbUnits r g b s.nUnits] := rfl

end

section
variable (s : State) (h : BitVec 8) (v : Intensity)

@[simp] theorem State.writeHv_units : (s.writeHv h v).units = hvUnits h (gammaGate s.gammaEn v) s.nUnits := rfl
@[simp] theorem State.writeHv_gammaEn : (s.writeHv h v).gammaEn = s.gammaEn := rfl
@[simp] theorem State.writeHv_hue : (s.writeHv h v).hue = h := rfl
@[simp] theorem State.writeHv_intensity : (s.writeHv h v).intensity = v := rfl
@[simp] theorem State.writeHv_swStart : (s.writeHv h v).swStart = s.swStart := rfl
@[simp] theorem State.writeHv_swStop : (s.writeHv h v).swStop = s.swStop := rfl
@[simp] theorem State.writeHv_swStep : (s.writeHv h v).swStep = s.swStep := rfl
@[simp] theorem State.writeHv_swInterval : (s.writeHv h v).swInterval = s.swInterval := rfl
@[simp] theorem State.writeHv_swLast : (s.writeHv h v).swLast = s.swLast := rfl
@[simp] theorem State.writeHv_swCur : (s.writeHv h v).swCur = s.swCur := rfl
@[simp] theorem State.writeHv_swEn : (s.writeHv h v).swEn = s.swEn := rfl
@[simp] theorem State.writeHv_now : (s.writeHv h v).now = s.now := rfl
@[simp] theorem State.writeHv_inputs : (s.writeHv h v).inputs = s.inputs := rfl
@[simp] theorem State.writeHv_results : (s.writeHv h v).results = s.results := rfl
@[simp] theorem State.writeHv_frames : (s.writeHv h v).frames = s.frames ++ [hvUnits h (gammaGate s.gammaEn v) s.nUnits] := rfl

end

section
variable (s : State)

@[simp] theorem State.writeOff_units : (s.writeOff).units = List.replicate s.nUnits Rgb8.off := rfl
@[simp] theorem State.writeOff_gammaEn : (s.writeOff).gammaEn = s.gammaEn := rfl
@[simp] theorem State.writeOff_hue : (s.writeOff).hue = s.hue := rfl
@[simp] theorem State.writeOff_intensity : (s.writeOff).intensity = s.intensity := rfl
@[simp] theorem State.writeOff_swStart : (s.writeOff).swStart = s.swStart := rfl
@[simp] theorem State.writeOff_swStop : (s.writeOff).swStop = s.swStop := rfl
@[simp] theorem State.writeOff_swStep : (s.writeOff).swStep = s.swStep := rfl
@[simp] theorem State.writeOff_swInterval : (s.writeOff).swInterval = s.swInterval := rfl
@[simp] theorem State.writeOff_swLast : (s.writeOff).swLast = s.swLast := rfl
@[simp] theorem State.writeOff_swCur : (s.writeOff).swCur = s.swCur := rfl
@[simp] theorem State.writeOff_swEn : (s.writeOff).swEn = s.swEn := rfl
@[simp] theorem State.writeOff_now : (s.writeOff).now = s.now := rfl
@[simp] theorem State.writeOff_inputs : (s.writeOff).inputs = s.inputs := rfl
@[simp] theorem State.writeOff_results : (s.writeOff).results = s.results := rfl
@[simp] theorem State.writeOff_frames : (s.writeOff).frames = s.frames ++ [List.replicate s.nUnits Rgb8.off] := rfl

end

section
variable (s : State)

@[simp] theorem State.stamp_units : (s.stamp).units = s.units := rfl
@[simp] theorem State.stamp_gammaEn : (s.stamp).gammaEn = s.gammaEn := rfl
@[simp] theorem State.stamp_hue : (s.stamp).hue = s.hue := rfl
@[simp] theorem State.stamp_intensity : (s.stamp).intensity = s.intensity := rfl
@[simp] theorem State.stamp_swStart : (s.stamp).swStart = s.swStart := rfl
@[simp] theorem State.stamp_swStop : (s.stamp).swStop = s.swStop := rfl
@[simp] theorem State.stamp_swStep : (s.stamp).swStep = s.swStep := rfl
@[simp] theorem State.stamp_swInterval : (s.stamp).swInterval = s.swInterval := rfl
@[simp] theorem State.stamp_swLast : (s.stamp).swLast = s.now := rfl
@[simp] theorem State.stamp_swCur : (s.stamp).swCur = s.swCur := rfl
@[simp] theorem State.stamp_swEn : (s.stamp).swEn = s.swEn := rfl
@[simp] theorem State.stamp_now : (s.stamp).now = s.now := rfl
@[simp] theorem State.stamp_inputs : (s.stamp).inputs = s.inputs := rfl
@[simp] theorem State.stamp_results : (s.stamp).results = s.results := rfl
@[simp] theorem State.stamp_frames : (s.stamp).frames = s.frames := rfl

end

section
variable (s : State)

@[simp] theorem State.raiseIllegal_units : (s.raiseIllegal).units = s.units := rfl
@[simp] theorem State.raiseIllegal_gammaEn : (s.raiseIllegal).gammaEn = s.gammaEn := rfl
@[simp] theorem State.raiseIllegal_hue : (s.raiseIllegal).hue = s.hue := rfl
@[simp] theorem State.raiseIllegal_intensity : (s.raiseIllegal).intensity = s.intensity := rfl
@[simp] theorem State.raiseIllegal_swStart : (s.raiseIllegal).swStart = s.swStart := rfl
@[simp] theorem State.raiseIllegal_swStop : (s.raiseIllegal).swStop = s.swStop := rfl
@[simp] theorem State.raiseIllegal_swStep : (s.raiseIllegal).swStep = s.swStep := rfl
@[simp] theorem State.raiseIllegal_swInterval : (s.raiseIllegal).swInterval = s.swInterval := rfl
@[simp] theorem State.raiseIllegal_swLast : (s.raiseIllegal).swLast = s.swLast := rfl
@[simp] theorem State.raiseIllegal_swCur : (s.raiseIllegal).swCur = s.swCur := rfl
@[simp] theorem State.raiseIllegal_swEn : (s.raiseIllegal).swEn = s.swEn := rfl
@[simp] theorem State.raiseIllegal_now : (s.raiseIllegal).now = s.now := rfl
@[simp] theorem State.raiseIllegal_inputs : (s.raiseIllegal).inputs = s.inputs := rfl
@[simp] theorem State.raiseIllegal_results : (s.raiseIllegal).results = s.results ++ [resultWord .errIllegal 0] := rfl
@[simp] theorem State.raiseIllegal_frames : (s.raiseIllegal).frames = s.frames := rfl

end

section
variable (s : State)

@[simp] theorem State.takeReset_units : (s.takeReset).units = List.replicate s.nUnits Rgb8.off := rfl
@[simp] theorem State.takeReset_gammaEn : (s.takeReset).gammaEn = false := rfl
@[simp] theorem State.takeReset_hue : (s.takeReset).hue = 0 := rfl
@[simp] theorem State.takeReset_intensity : (s.takeReset).intensity = 0 := rfl
@[simp] theorem State.takeReset_swStart : (s.takeReset).swStart = 0 := rfl
@[simp] theorem State.takeReset_swStop : (s.takeReset).swStop = 0 := rfl
@[simp] theorem State.takeReset_swStep : (s.takeReset).swStep = 0 := rfl
@[simp] theorem State.takeReset_swInterval : (s.takeReset).swInterval = 0 := rfl
@[simp] theorem State.takeReset_swLast : (s.takeReset).swLast = 0 := rfl
@[simp] theorem State.takeReset_swCur : (s.takeReset).swCur = 0 := rfl
@[simp] theorem State.takeReset_swEn : (s.takeReset).swEn = false := rfl
@[simp] theorem State.takeReset_now : (s.takeReset).now = s.now := rfl
@[simp] theorem State.takeReset_inputs : (s.takeReset).inputs = s.inputs := rfl
@[simp] theorem State.takeReset_results : (s.takeReset).results = s.results := rfl
@[simp] theorem State.takeReset_frames : (s.takeReset).frames = s.frames := rfl

end

section
variable (s : State) (nbits w : Nat)

@[simp] theorem State.withFetchWord_units : (s.withFetchWord nbits w).units = s.units := rfl
@[simp] theorem State.withFetchWord_gammaEn : (s.withFetchWord nbits w).gammaEn = s.gammaEn := rfl
@[simp] theorem State.withFetchWord_hue : (s.withFetchWord nbits w).hue = s.hue := rfl
@[simp] theorem State.withFetchWord_intensity : (s.withFetchWord nbits w).intensity = s.intensity := rfl
@[simp] theorem State.withFetchWord_swStart : (s.withFetchWord nbits w).swStart = s.swStart := rfl
@[simp] theorem State.withFetchWord_swStop : (s.withFetchWord nbits w).swStop = s.swStop := rfl
@[simp] theorem State.withFetchWord_swStep : (s.withFetchWord nbits w).swStep = s.swStep := rfl
@[simp] theorem State.withFetchWord_swInterval : (s.withFetchWord nbits w).swInterval = s.swInterval := rfl
@[simp] theorem State.withFetchWord_swLast : (s.withFetchWord nbits w).swLast = s.swLast := rfl
@[simp] theorem State.withFetchWord_swCur : (s.withFetchWord nbits w).swCur = s.swCur := rfl
@[simp] theorem State.withFetchWord_swEn : (s.withFetchWord nbits w).swEn = s.swEn := rfl
@[simp] theorem State.withFetchWord_now : (s.withFetchWord nbits w).now = s.now := rfl
@[simp] theorem State.withFetchWord_inputs : (s.withFetchWord nbits w).inputs = .command (tableWord nbits w) s.now :: s.inputs := rfl
@[simp] theorem State.withFetchWord_results : (s.withFetchWord nbits w).results = s.results := rfl
@[simp] theorem State.withFetchWord_frames : (s.withFetchWord nbits w).frames = s.frames := rfl

end

end Sys2Proof.Machine
end

