-- ==== Sys2Proof/Laws/Ops.lean ====
section
/-! SUPPORT. One lemma per shared operation that says what it gives: lengths and entries of the unit lists, sizes of the
datapath's values, and how the number of units is kept. -/

namespace Sys2Proof.Machine

@[simp] theorem State.answer_nUnits (s : State) (st : Status) (p : BitVec 56) : (s.answer st p).nUnits = s.nUnits := rfl

@[simp] theorem State.emit_nUnits (s : State) : s.emit.nUnits = s.nUnits := rfl

@[simp] theorem State.stamp_nUnits (s : State) : s.stamp.nUnits = s.nUnits := rfl

@[simp] theorem State.raiseIllegal_nUnits (s : State) : s.raiseIllegal.nUnits = s.nUnits := rfl

@[simp] theorem rgbUnits_length (r g b : Intensity) (n : Nat) : (rgbUnits r g b n).length = n := by simp [rgbUnits]

@[simp] theorem hvUnits_length (h : Level) (vv : Intensity) (n : Nat) : (hvUnits h vv n).length = n := by simp [hvUnits]

@[simp] theorem ladder_length (v : Intensity) (n : Nat) : (ladder v n).length = n := by simp [ladder]

/-- Unit `i` of WRITE_RGB (R106). -/
theorem rgbUnits_getElem? (r g b : Intensity) {n i : Nat} (h : i < n) :
    (rgbUnits r g b n)[i]? = some ⟨ladderLevel r n i, ladderLevel g n i, ladderLevel b n i⟩ := by
  simp [rgbUnits, h]

/-- Unit `i` of WRITE_HV (R107). -/
theorem hvUnits_getElem? (hue : Level) (vv : Intensity) {n i : Nat} (h : i < n) :
    (hvUnits hue vv n)[i]? = some (hvUnit hue vv n i) := by
  simp [hvUnits, h]

/-- Level `i` of a ladder pass (R103). -/
theorem ladder_getElem? (v : Intensity) {n i : Nat} (h : i < n) : (ladder v n)[i]? = some (ladderLevel v n i) := by
  simp [ladder, h]

@[simp] theorem State.writeRgb_nUnits (s : State) (r g b : Intensity) : (s.writeRgb r g b).nUnits = s.nUnits := by
  simp [State.nUnits]

@[simp] theorem State.writeHv_nUnits (s : State) (h : BitVec 8) (v : Intensity) : (s.writeHv h v).nUnits = s.nUnits := by
  simp [State.nUnits]

@[simp] theorem State.writeOff_nUnits (s : State) : s.writeOff.nUnits = s.nUnits := by simp [State.nUnits]

@[simp] theorem State.takeReset_nUnits (s : State) : s.takeReset.nUnits = s.nUnits := by simp [State.nUnits]

/-- After the clamp the unit at index `full` exists (R103). -/
theorem ladderFull_lt (v : Intensity) {n : Nat} (h : 1 ≤ n) : ladderFull v n < n := by unfold ladderFull; omega

@[simp] theorem clamp10_toNat_le (x : BitVec 16) : (clamp10 x).toNat ≤ 1023 := Nat.le_of_lt_succ (clamp10 x).isLt

theorem clamp3071_le (h : BitVec 16) : clamp3071 h ≤ 3071 := Nat.min_le_right _ _

theorem wheelSegment_le (hc : Nat) : wheelSegment hc ≤ 2 := Nat.min_le_right _ _

theorem wheelPosition_le (hc : Nat) : wheelPosition hc ≤ 1023 := Nat.min_le_right _ _

/-- The falling channel is stored without truncation (R13, R134). -/
theorem rampDown_toNat (pe : Nat) {vc : Nat} (hv : vc ≤ 1023) : (rampDown pe vc).toNat = (1023 - pe) * vc / 1023 := by
  have h : (1023 - pe) * vc / 1023 ≤ vc := by
    refine Nat.div_le_of_le_mul ?_
    exact Nat.mul_le_mul_right vc (Nat.sub_le 1023 pe)
  rw [rampDown, BitVec.toNat_ofNat]
  exact Nat.mod_eq_of_lt (by omega)

/-- The rising channel is stored without truncation (R13, R134). -/
theorem rampUp_toNat {pe vc : Nat} (hp : pe ≤ 1023) (hv : vc ≤ 1023) : (rampUp pe vc).toNat = pe * vc / 1023 := by
  have h : pe * vc / 1023 ≤ vc := by
    refine Nat.div_le_of_le_mul ?_
    exact Nat.mul_le_mul_right vc hp
  rw [rampUp, BitVec.toNat_ofNat]
  exact Nat.mod_eq_of_lt (by omega)

/-- A status and a payload make a result word as arithmetic (R80). -/
theorem resultWord_toNat (st : Status) (p : BitVec 56) :
    (resultWord st p).toNat = (statusCode st).toNat * 2 ^ 56 + p.toNat := by
  rw [resultWord, BitVec.toNat_append, ← Nat.shiftLeft_add_eq_or_of_lt p.isLt, Nat.shiftLeft_eq]

/-- The result word of a command that reports nothing but OK (R80). -/
theorem resultWord_ok_zero : resultWord .ok 0 = 0 := by decide

theorem resultWord_errIllegal : resultWord .errIllegal 0 = 0x0200000000000000 := by decide

theorem resultWord_errDiv0 : resultWord .errDiv0 (floatPayload quietNaN32) = 0x010000007FC00000 := by decide

/-- What a tick can do (R177): step to the next hue, or finish. -/
theorem sweepTick_cases (off : BitVec 8) (s : State) :
    (nextHue s ≤ s.swStop.toNat ∧
      sweepTick off s = State.answer
        { s.stamp.writeHv (BitVec.ofNat 8 (nextHue s + off.toNat)) s.intensity with swCur := BitVec.ofNat 8 (nextHue s) }
        .ok (outcomePayload .stepped))
      ∨ (s.swStop.toNat < nextHue s ∧
        sweepTick off s = State.answer { s.stamp with swEn := false } .ok (outcomePayload .finished)) := by
  by_cases h : nextHue s ≤ s.swStop.toNat
  · exact .inl ⟨h, if_pos h⟩
  · exact .inr ⟨Nat.lt_of_not_le h, if_neg h⟩

/-- What a POLL can do (R171, R177): Idle, Waiting, or the tick. -/
theorem execPoll_cases (off : BitVec 8) (s : State) :
    (s.swEn = false ∧ execPoll off s = .next (s.answer .ok (outcomePayload .idle)))
      ∨ (s.swEn = true ∧ (elapsed s).toNat ≤ s.swInterval.toNat
          ∧ execPoll off s = .next (s.answer .ok (outcomePayload .waiting)))
      ∨ (s.swEn = true ∧ s.swInterval.toNat < (elapsed s).toNat ∧ execPoll off s = .next (sweepTick off s)) := by
  unfold execPoll
  cases hen : s.swEn
  · exact .inl ⟨rfl, by simp⟩
  · by_cases hel : (elapsed s).toNat ≤ s.swInterval.toNat
    · exact .inr (.inl ⟨rfl, hel, by simp [hel]⟩)
    · exact .inr (.inr ⟨rfl, Nat.lt_of_not_le hel, by simp [hel]⟩)

/-- What PROG can do (R178): report that the sweep has no extent, or the percentage. -/
theorem execProg_cases (s : State) :
    (s.swStop = s.swStart ∧ execProg s = .next (s.answer .errDiv0 (floatPayload quietNaN32)))
      ∨ (s.swStop ≠ s.swStart ∧ execProg s = .next (s.answer .ok (floatPayload
          (percent32 ((s.swCur.toNat : Int) - s.swStart.toNat) ((s.swStop.toNat : Int) - s.swStart.toNat))))) := by
  by_cases h : s.swStop = s.swStart
  · exact .inl ⟨h, by simp [execProg, h]⟩
  · refine .inr ⟨h, ?_⟩
    have hd : (s.swStop.toNat : Int) - s.swStart.toNat ≠ 0 := fun h0 => h (BitVec.eq_of_toNat_eq (by omega))
    simp [execProg, hd]

end Sys2Proof.Machine
end

