-- ==== Sys2Proof/Laws/PerInstr.lean ====
section
/-! SUPPORT. Per-instruction families: every operand of a command fits its field, and the encoder writes the opcode of
spec/30_encoding.md R71. -/

namespace Sys2Proof.Laws

/-- The command is well formed: its operands fit their fields (R84). -/
def FitsItsFields.Statement (i : Instr) : Prop := i.WellFormed

theorem FitsItsFields.setrgb (r g b : BitVec 16) : FitsItsFields.Statement (.setrgb r g b) := by
  simp [FitsItsFields.Statement, Instr.WellFormed, Instr.written, Written.fits, fitsField, r.isLt, g.isLt, b.isLt]

theorem FitsItsFields.sethv (hue : BitVec 8) (val : BitVec 16) : FitsItsFields.Statement (.sethv hue val) := by
  simp [FitsItsFields.Statement, Instr.WellFormed, Instr.written, Written.fits, fitsField, hue.isLt, val.isLt]

theorem FitsItsFields.alloff : FitsItsFields.Statement .alloff := rfl

theorem FitsItsFields.setgamma (en : Bool) : FitsItsFields.Statement (.setgamma en) := by cases en <;> rfl

theorem FitsItsFields.cfgswp (start stop step : BitVec 8) (ivl : BitVec 32) :
    FitsItsFields.Statement (.cfgswp start stop step ivl) := by
  simp [FitsItsFields.Statement, Instr.WellFormed, Instr.written, Written.fits, fitsField, start.isLt, stop.isLt,
    step.isLt, ivl.isLt]

theorem FitsItsFields.enswp (en : Bool) : FitsItsFields.Statement (.enswp en) := by cases en <;> rfl

theorem FitsItsFields.rstswp : FitsItsFields.Statement .rstswp := rfl

theorem FitsItsFields.poll (off : BitVec 8) : FitsItsFields.Statement (.poll off) := by
  simp [FitsItsFields.Statement, Instr.WellFormed, Instr.written, Written.fits, fitsField, off.isLt]

theorem FitsItsFields.prog : FitsItsFields.Statement .prog := rfl

theorem FitsItsFields.hv2rgb (h v : BitVec 16) : FitsItsFields.Statement (.hv2rgb h v) := by
  simp [FitsItsFields.Statement, Instr.WellFormed, Instr.written, Written.fits, fitsField, h.isLt, v.isLt]

/-- The opcode of a command (R71). -/
def opcodeNumber : Instr → BitVec 8
  | .setrgb _ _ _ => 0x01
  | .sethv _ _ => 0x02
  | .alloff => 0x03
  | .setgamma _ => 0x04
  | .cfgswp _ _ _ _ => 0x05
  | .enswp _ => 0x06
  | .rstswp => 0x07
  | .poll _ => 0x08
  | .prog => 0x09
  | .hv2rgb _ _ => 0x0A

/-- The encoder writes the command's opcode (R70, R71). -/
def EncodesItsOpcode.Statement (i : Instr) : Prop := opcodeOf (encode i) = opcodeNumber i

/-- From the word's number to its opcode: the operands stay below bit 56. -/
theorem opcodeOf_of_toNat {cmd : Word} {op rest : Nat} (h : cmd.toNat = op * 2 ^ 56 + rest) (hr : rest < 2 ^ 56) :
    opcodeOf cmd = BitVec.ofNat 8 op := by
  apply BitVec.eq_of_toNat_eq
  rw [opcodeOf_toNat, BitVec.toNat_ofNat, h]
  omega

theorem EncodesItsOpcode.setrgb (r g b : BitVec 16) : EncodesItsOpcode.Statement (.setrgb r g b) := by
  refine opcodeOf_of_toNat (op := 1) (rest := r.toNat * 2 ^ 32 + g.toNat * 2 ^ 16 + b.toNat) ?_ ?_
  · rw [encode_setrgb_toNat]; omega
  · omega

theorem EncodesItsOpcode.sethv (hue : BitVec 8) (val : BitVec 16) : EncodesItsOpcode.Statement (.sethv hue val) := by
  refine opcodeOf_of_toNat (op := 2) (rest := hue.toNat * 2 ^ 16 + val.toNat) ?_ ?_
  · rw [encode_sethv_toNat]; omega
  · omega

theorem EncodesItsOpcode.alloff : EncodesItsOpcode.Statement .alloff := by
  unfold EncodesItsOpcode.Statement; decide

theorem EncodesItsOpcode.setgamma (en : Bool) : EncodesItsOpcode.Statement (.setgamma en) := by
  unfold EncodesItsOpcode.Statement; cases en <;> decide

theorem EncodesItsOpcode.cfgswp (start stop step : BitVec 8) (ivl : BitVec 32) :
    EncodesItsOpcode.Statement (.cfgswp start stop step ivl) := by
  refine opcodeOf_of_toNat (op := 5)
    (rest := start.toNat * 2 ^ 48 + stop.toNat * 2 ^ 40 + step.toNat * 2 ^ 32 + ivl.toNat) ?_ ?_
  · rw [encode_cfgswp_toNat]; omega
  · omega

theorem EncodesItsOpcode.enswp (en : Bool) : EncodesItsOpcode.Statement (.enswp en) := by
  unfold EncodesItsOpcode.Statement; cases en <;> decide

theorem EncodesItsOpcode.rstswp : EncodesItsOpcode.Statement .rstswp := by
  unfold EncodesItsOpcode.Statement; decide

theorem EncodesItsOpcode.poll (off : BitVec 8) : EncodesItsOpcode.Statement (.poll off) := by
  refine opcodeOf_of_toNat (op := 8) (rest := off.toNat) ?_ ?_
  · exact encode_poll_toNat off
  · omega

theorem EncodesItsOpcode.prog : EncodesItsOpcode.Statement .prog := by
  unfold EncodesItsOpcode.Statement; decide

theorem EncodesItsOpcode.hv2rgb (h v : BitVec 16) : EncodesItsOpcode.Statement (.hv2rgb h v) := by
  refine opcodeOf_of_toNat (op := 10) (rest := h.toNat * 2 ^ 16 + v.toNat) ?_ ?_
  · rw [encode_hv2rgb_toNat]; omega
  · omega

end Sys2Proof.Laws
end

