-- ==== Sys2Proof/Laws/Step.lean ====
section
/-! SUPPORT. What one step can do, said once: it refuses a fixture of no units, waits, resets, executes the decoded
command, or answers an illegal word. -/

namespace Sys2Proof.Machine

/-- What taking the next host input can give. -/
theorem fetch_cases (s : State) :
    (s.inputs = [] ∧ fetch s = .waiting)
      ∨ (∃ rest, s.inputs = .reset :: rest ∧ fetch s = .reset { s with inputs := rest })
      ∨ (∃ cmd now rest, s.inputs = .command cmd now :: rest
          ∧ fetch s = .command cmd { s with inputs := rest, now := now }) := by
  unfold fetch
  split
  · exact .inl ⟨‹_›, rfl⟩
  · exact .inr (.inl ⟨_, ‹_›, rfl⟩)
  · exact .inr (.inr ⟨_, _, _, ‹_›, rfl⟩)

/-- The inversion of a step that answers a next state. -/
theorem step_cases {s t : State} (h : step s = .next t) :
    s.nUnits ≠ 0 ∧
      ((s.inputs = [] ∧ t = s)
        ∨ (∃ rest, s.inputs = .reset :: rest ∧ t = State.takeReset { s with inputs := rest })
        ∨ (∃ cmd now rest i, s.inputs = .command cmd now :: rest ∧ decode cmd = .ok i
            ∧ exec i { s with inputs := rest, now := now } = .next t)
        ∨ (∃ cmd now rest e, s.inputs = .command cmd now :: rest ∧ decode cmd = .error e
            ∧ t = State.raiseIllegal { s with inputs := rest, now := now })) := by
  unfold step at h
  split at h
  · cases h
  · refine ⟨‹_›, ?_⟩
    obtain ⟨hi, hf⟩ | ⟨rest, hi, hf⟩ | ⟨cmd, now, rest, hi, hf⟩ := fetch_cases s
    · rw [hf] at h
      cases h
      exact .inl ⟨hi, rfl⟩
    · rw [hf] at h
      cases h
      exact .inr (.inl ⟨rest, hi, rfl⟩)
    · rw [hf] at h
      cases hd : decode cmd with
      | ok i =>
        simp only [hd] at h
        exact .inr (.inr (.inl ⟨cmd, now, rest, i, hi, hd, h⟩))
      | error e =>
        simp only [hd] at h
        cases h
        exact .inr (.inr (.inr ⟨cmd, now, rest, e, hi, hd, rfl⟩))

/-- Every command answers a next state, and none touches what the host still presents or the number of units. -/
theorem exec_next (i : Instr) (s : State) :
    ∃ t, exec i s = .next t ∧ t.nUnits = s.nUnits ∧ t.inputs = s.inputs ∧ t.now = s.now := by
  cases i with
  | setrgb r g b => exact ⟨_, rfl, by simp, rfl, rfl⟩
  | sethv hue val => exact ⟨_, rfl, by simp, rfl, rfl⟩
  | alloff => exact ⟨_, rfl, by simp, rfl, rfl⟩
  | setgamma en => exact ⟨_, rfl, rfl, rfl, rfl⟩
  | cfgswp start stop step ivl => exact ⟨_, rfl, rfl, rfl, rfl⟩
  | enswp en => cases en <;> exact ⟨_, rfl, rfl, rfl, rfl⟩
  | rstswp => exact ⟨_, rfl, rfl, rfl, rfl⟩
  | poll off =>
    obtain ⟨-, h⟩ | ⟨-, -, h⟩ | ⟨-, -, h⟩ := execPoll_cases off s
    · exact ⟨_, h, rfl, rfl, rfl⟩
    · exact ⟨_, h, rfl, rfl, rfl⟩
    · refine ⟨_, h, ?_⟩
      obtain ⟨-, ht⟩ | ⟨-, ht⟩ := sweepTick_cases off s
      · rw [ht]; exact ⟨by simp [State.nUnits], rfl, rfl⟩
      · rw [ht]; exact ⟨rfl, rfl, rfl⟩
  | prog =>
    obtain ⟨-, h⟩ | ⟨-, h⟩ := execProg_cases s <;> exact ⟨_, h, rfl, rfl, rfl⟩
  | hv2rgb h v => exact ⟨_, rfl, rfl, rfl, rfl⟩

end Sys2Proof.Machine
end

