-- ==== Sys2Proof/Tests/Slice0.lean ====
section
/-! SUPPORT. Tests on fixed values taken from spec/95_test_vectors.md (the section is named at each group), the smoke
tests of well-formedness, and for each statement with hypotheses a state and operands that meet them. -/

namespace Sys2Proof.Tests

open Sys2Proof.Machine

/-- The next state of an outcome. -/
def nextOf (o : Host.Outcome State Fault Refusal) : Option State :=
  match o with
  | .next t => some t
  | .fault _ => none
  | .refused _ => none

/-- The sweep of the source's example, Enabled and stamped at 1000, sampled at `now` (vector W5). -/
def sweeping (now : Millis) : State :=
  { State.reset with swStop := 10, swStep := 2, swInterval := 100, swLast := 1000, swEn := true, now := now }

/-- A state at whose inputs the host presents one word. -/
def presenting (cmd : Word) (now : Millis) : State := { State.reset with inputs := [.command cmd now] }

/-! ### Decoding: one word of every command, written out from the patterns of R73 (section 2) -/

theorem test_decode_setrgb : decode 0x010003FF012C0000 = .ok (.setrgb 1023 300 0) := by decide
theorem test_decode_setrgb_bits :
    decode 0b0000000100000000100000000000000101000000000000110010000000000111 = .ok (.setrgb 0x8001 0x4003 0x2007) := by
  decide
theorem test_decode_sethv : decode 0x0200000000C8FFFF = .ok (.sethv 200 65535) := by decide
theorem test_decode_alloff : decode 0x0300000000000000 = .ok .alloff := by decide
theorem test_decode_setgamma : decode 0x0400000000000001 = .ok (.setgamma true) := by decide
theorem test_decode_cfgswp : decode 0x05FAFF03000000C8 = .ok (.cfgswp 250 255 3 200) := by decide
theorem test_decode_enswp : decode 0x0600000000000000 = .ok (.enswp false) := by decide
theorem test_decode_rstswp : decode 0x0700000000000000 = .ok .rstswp := by decide
theorem test_decode_poll : decode 0x08000000000000FF = .ok (.poll 255) := by decide
theorem test_decode_prog : decode 0x0900000000000000 = .ok .prog := by decide
theorem test_decode_hv2rgb : decode 0x0A00000005FE0064 = .ok (.hv2rgb 1534 100) := by decide
theorem test_encode_cfgswp : encode (.cfgswp 100 130 10 50) = 0x0564820A00000032 := by decide
theorem test_encode_hv2rgb : encode (.hv2rgb 2000 2000) = 0x0A00000007D007D0 := by decide

/-! ### Illegal words (section 2.11) -/

theorem test_illegal_zero : decode 0 = .error (.unassignedOpcode 0) := by decide
theorem test_illegal_0B : decode 0x0B00000000000000 = .error (.unassignedOpcode 0x0B) := by decide
theorem test_illegal_FF : decode 0xFFFFFFFFFFFFFFFF = .error (.unassignedOpcode 0xFF) := by decide
theorem test_illegal_setrgb_48 : decode 0x0101000000000000 = .error (.reservedBitSet 1) := by decide
theorem test_illegal_setrgb_55 : decode 0x0180000000000000 = .error (.reservedBitSet 1) := by decide
theorem test_illegal_sethv_24 : decode 0x0200000001000000 = .error (.reservedBitSet 2) := by decide
theorem test_illegal_alloff_0 : decode 0x0300000000000001 = .error (.reservedBitSet 3) := by decide
theorem test_illegal_setgamma_1 : decode 0x0400000000000002 = .error (.reservedBitSet 4) := by decide
theorem test_illegal_enswp_1 : decode 0x0600000000000003 = .error (.reservedBitSet 6) := by decide
theorem test_illegal_rstswp_8 : decode 0x0700000000000100 = .error (.reservedBitSet 7) := by decide
theorem test_illegal_poll_8 : decode 0x0800000000000100 = .error (.reservedBitSet 8) := by decide
theorem test_illegal_prog_0 : decode 0x0900000000000001 = .error (.reservedBitSet 9) := by decide
theorem test_illegal_hv2rgb_32 : decode 0x0A00000100000000 = .error (.reservedBitSet 10) := by decide
theorem test_legal_cfgswp_ones : decode 0x05FFFFFFFFFFFFFF = .ok (.cfgswp 255 255 255 0xFFFFFFFF) := by decide

/-! ### Well-formedness: one written line for each check, which the check refuses (R84) -/

theorem test_misfit_setrgb_r : assemble (.setrgb 65536 0 0) = none := by decide
theorem test_misfit_setrgb_g : assemble (.setrgb 0 65536 0) = none := by decide
theorem test_misfit_setrgb_b : assemble (.setrgb 0 0 65536) = none := by decide
theorem test_misfit_sethv_hue : assemble (.sethv 256 0) = none := by decide
theorem test_misfit_sethv_value : assemble (.sethv 0 65536) = none := by decide
theorem test_misfit_setgamma : assemble (.setgamma 2) = none := by decide
theorem test_misfit_cfgswp_start : assemble (.cfgswp 256 0 0 0) = none := by decide
theorem test_misfit_cfgswp_stop : assemble (.cfgswp 0 256 0 0) = none := by decide
theorem test_misfit_cfgswp_step : assemble (.cfgswp 0 0 256 0) = none := by decide
theorem test_misfit_cfgswp_interval : assemble (.cfgswp 0 0 0 4294967296) = none := by decide
theorem test_misfit_enswp : assemble (.enswp 2) = none := by decide
theorem test_misfit_poll : assemble (.poll 256) = none := by decide
theorem test_misfit_hv2rgb_h : assemble (.hv2rgb 65536 0) = none := by decide
theorem test_misfit_hv2rgb_v : assemble (.hv2rgb 0 0x10000) = none := by decide
theorem test_fits_above_legal_range : assemble (.setrgb 2000 0 0x400) = some (.setrgb 2000 0 1024) := by decide
theorem test_fits_at_the_widths :
    assemble (.cfgswp 255 255 255 4294967295) = some (.cfgswp 255 255 255 0xFFFFFFFF)
      ∧ assemble (.hv2rgb 65535 65535) = some (.hv2rgb 0xFFFF 0xFFFF) ∧ assemble (.poll 255) = some (.poll 255)
      ∧ assemble (.sethv 255 65535) = some (.sethv 255 0xFFFF) ∧ assemble (.enswp 1) = some (.enswp true) := by decide
theorem test_pseudo_commands :
    [Written.gammaOn, .gammaOff, .sweepOn, .sweepOff, .off].map assemble
      = [some (.setgamma true), some (.setgamma false), some (.enswp true), some (.enswp false), some .alloff] := by decide
theorem test_macro_sweep_with_delay :
    (sweepWithDelay 100 130 10 50 1023).map assemble
      = [some (.sethv 100 1023), some (.cfgswp 100 130 10 50), some (.enswp true)] := by decide
theorem test_macro_intensity : sweepIntensityWithDelay 7 0 10 4 = [.sethv 7 0, .sethv 7 4, .sethv 7 8] := by decide

/-! ### Datapath (sections 2.1 and 2.2) -/

theorem test_clamp10 : [1023, 1024, 65535].map clamp10 = [1023, 1023, 1023] := by decide
theorem test_clamp3071 : [3071, 3072, 65535].map clamp3071 = [3071, 3071, 3071] := by decide
theorem test_ladder_1000 : ladder 1000 4 = [255, 255, 255, 232] := by decide
theorem test_ladder_clamped : ladder 700 2 = [255, 188] ∧ ladder 300 1 = [44] ∧ ladder 768 3 = [255, 255, 0] := by decide
theorem test_ladder_wide : ladder 600 8 = [255, 255, 88, 0, 0, 0, 0, 0] := by decide
theorem test_frame_word :
    frameWord [⟨255, 255, 0⟩, ⟨255, 44, 0⟩, ⟨255, 0, 0⟩, ⟨255, 0, 0⟩] = 0xFF0000FF0000FF2C00FFFF00 := by decide

/-! ### PROG's arithmetic (section 2.10, column q and result) -/

theorem test_div32 : div32 (f32 1) (f32 7) = 0x3E124925 ∧ div32 (f32 254) (f32 255) = 0x3F7EFEFF := by decide
theorem test_percent32 :
    percent32 6 10 = 0x42700001 ∧ percent32 1 3 = 0x42055556 ∧ percent32 128 255 = 0x4248C8CA
      ∧ percent32 0 (-100) = 0x80000000 := by decide

/-! ### One step of each command (sections 2.2 to 2.10) -/

theorem test_setrgb :
    (nextOf (exec (.setrgb 600 0 1023) State.reset)).map (fun t => (t.units, t.frames.length, t.results))
      = some ([⟨255, 0, 255⟩, ⟨255, 0, 255⟩, ⟨88, 0, 255⟩, ⟨0, 0, 255⟩], 1, [0]) := by decide
theorem test_setrgb_two_units :
    (nextOf (exec (.setrgb 700 511 512) (State.resetOf 2))).map State.frames
      = some [[⟨255, 255, 255⟩, ⟨188, 255, 0⟩]] := by decide
theorem test_sethv :
    (nextOf (exec (.sethv 85 600) State.reset)).map State.frames
      = some [[Config.hsv8ToRgb8 85 255 255, Config.hsv8ToRgb8 85 255 255, Config.hsv8ToRgb8 85 255 88, ⟨0, 0, 0⟩]] := rfl
theorem test_sethv_clamped :
    (nextOf (exec (.sethv 200 65535) State.reset)).map (fun t => (t.hue, t.intensity)) = some (200, 1023) := by decide
theorem test_alloff :
    (nextOf (exec .alloff (State.resetOf 1))).map (fun t => (t.units, t.frames)) = some ([⟨0, 0, 0⟩], [[⟨0, 0, 0⟩]]) := by
  decide
theorem test_setgamma :
    (nextOf (exec (.setgamma true) State.reset)).map (fun t => (t.gammaEn, t.frames)) = some (true, []) := by decide
theorem test_hv2rgb :
    (nextOf (exec (.hv2rgb 1534 100) State.reset)).map State.results = some [0x000000000000C831] := by decide
theorem test_hv2rgb_capped :
    (nextOf (exec (.hv2rgb 5000 1023) State.reset)).map State.results = some [0x000000003FF00000] := by decide
theorem test_cfgswp :
    (nextOf (exec (.cfgswp 20 5 0 7) (sweeping 2000))).map (fun t =>
        ([t.swStart, t.swStop, t.swStep, t.swCur], t.swInterval, t.swEn, t.swLast))
      = some ([20, 5, 0, 20], 7, false, 2000) := by decide
theorem test_enswp_restamps :
    (nextOf (exec (.enswp true) (sweeping 1080))).map (fun t => (t.swEn, t.swLast)) = some (true, 1080) := by decide
theorem test_enswp_off_keeps_stamp :
    (nextOf (exec (.enswp false) (sweeping 1090))).map (fun t => (t.swEn, t.swLast)) = some (false, 1000) := by decide
theorem test_rstswp :
    (nextOf (exec .rstswp { sweeping 2100 with swCur := 4 })).map (fun t => (t.swCur, t.swLast, t.swEn))
      = some (0, 2100, true) := by decide
theorem test_poll_at_interval_waits :
    (nextOf (exec (.poll 0) (sweeping 1100))).map (fun t => (t.results, t.swLast)) = some ([3], 1000) := by decide
theorem test_poll_steps_across_the_wrap :
    (nextOf (exec (.poll 10) { sweeping 16 with swLast := 0xFFFFFF00, swCur := 250, swStop := 255, swInterval := 200 })).map
        (fun t => (t.results, t.swCur, t.hue, t.swLast, t.frames.length))
      = some ([1], 252, 6, 16, 1) := by decide
theorem test_prog :
    (nextOf (exec .prog { sweeping 0 with swCur := 3 })).map State.results = some [0x0000000041F00001] := by decide
theorem test_prog_div0 : (nextOf (exec .prog State.reset)).map State.results = some [0x010000007FC00000] := by decide
theorem test_step_illegal :
    (nextOf (step (presenting 0x0400000000000002 9))).map (fun t => (t.results, t.gammaEn, t.inputs))
      = some ([0x0200000000000000], false, []) := by decide
theorem test_decodeTableWord : decodeTableWord 64 0x0200000000550258 = some (.sethv 85 600) := by decide
theorem test_step_fetch_word :
    (nextOf (step (State.reset.withFetchWord 64 0x0400000000000001))).map (fun t => (t.results, t.gammaEn))
      = some ([0], true) := by decide

/-! ### The hypotheses of the statements can be met -/

theorem witness_wellFormed : (Instr.cfgswp 255 0 1 0xFFFFFFFF).WellFormed := by decide
theorem witness_encode_decode : decode (encode (.poll 128)) = .ok (.poll 128) := by decide
theorem witness_table_row : ∃ row ∈ opcodeTable, row.matches 0x0800000000000080 = true := by decide
theorem witness_legal_word : ¬ IllegalWord 0x0A000000FFFFFFFF := by unfold IllegalWord; decide
/-- One illegal word for each clause, at the clause's boundary. -/
theorem witness_illegal_words :
    IllegalWord 0x00FFFFFFFFFFFFFF ∧ IllegalWord 0x0B00000000000000 ∧ IllegalWord 0x0101000000000000
      ∧ IllegalWord 0x0200000001000000 ∧ IllegalWord 0x0300000000000001 ∧ IllegalWord 0x0400000000000002
      ∧ IllegalWord 0x0600000000000002 ∧ IllegalWord 0x0700000000000001 ∧ IllegalWord 0x0800000000000100
      ∧ IllegalWord 0x0900000000000001 ∧ IllegalWord 0x0A00000100000000 := by
  refine ⟨?_, ?_, ?_, ?_, ?_, ?_, ?_, ?_, ?_, ?_, ?_⟩ <;> (unfold IllegalWord; decide)
theorem witness_step_command :
    (presenting 0x0800000000000080 7).nUnits ≠ 0
      ∧ (presenting 0x0800000000000080 7).inputs = .command 0x0800000000000080 7 :: []
      ∧ decode 0x0800000000000080 = .ok (.poll 128) ∧ (Instr.poll 128).WellFormed := by decide
theorem witness_step_illegal :
    (presenting 0x0B00000000000000 7).nUnits ≠ 0
      ∧ (presenting 0x0B00000000000000 7).inputs = .command 0x0B00000000000000 7 :: []
      ∧ IllegalWord 0x0B00000000000000 := by unfold IllegalWord; decide
theorem witness_step_prog_without_extent :
    (presenting 0x0900000000000000 7).nUnits ≠ 0
      ∧ (presenting 0x0900000000000000 7).inputs = .command 0x0900000000000000 7 :: []
      ∧ State.swStop (presenting 0x0900000000000000 7) = State.swStart (presenting 0x0900000000000000 7) := by decide
theorem witness_step_ok :
    (presenting 0x010007D0FFFF0400 7).nUnits ≠ 0
      ∧ (presenting 0x010007D0FFFF0400 7).inputs = .command 0x010007D0FFFF0400 7 :: []
      ∧ ¬ IllegalWord 0x010007D0FFFF0400 := by unfold IllegalWord; decide
theorem witness_step_reset :
    State.nUnits { sweeping 5 with inputs := [.reset] } ≠ 0
      ∧ State.inputs { sweeping 5 with inputs := [.reset] } = .reset :: [] := by decide
theorem witness_step_waits : State.reset.nUnits ≠ 0 ∧ State.reset.inputs = [] := by decide
theorem witness_no_units : (State.resetOf 0).nUnits = 0 := by decide
theorem witness_units_change :
    ∃ t, step (presenting 0x010003FF012C0000 7) = .next t ∧ t.units ≠ (presenting 0x010003FF012C0000 7).units :=
  ⟨_, rfl, by decide⟩
theorem witness_sweepInv_step : ∃ t, SweepInv (sweeping 1101) ∧ step (sweeping 1101) = .next t :=
  ⟨_, ⟨by decide, by decide, by decide, by decide⟩, rfl⟩
/-- An elapsed tick of a sweep whose start is above its stop. -/
def startAboveStop : State := { sweeping 1101 with swStart := 20, swCur := 20 }
theorem witness_sweepInv_start_above_stop :
    SweepInv startAboveStop ∧ startAboveStop.swStop.toNat < startAboveStop.swStart.toNat ∧ TickElapsed startAboveStop :=
  ⟨⟨by decide, by decide, by decide, by decide⟩, by decide, by unfold TickElapsed; decide⟩
theorem witness_framesWhole : ∃ t, FramesWhole (sweeping 0) ∧ step (sweeping 0) = .next t :=
  ⟨_, by unfold FramesWhole; decide, rfl⟩
theorem witness_registers_written : ∃ t, exec .rstswp (sweeping 5) = .next t := ⟨_, rfl⟩
theorem witness_emits_stepped :
    ∃ t, exec (.poll 3) (sweeping 1101) = .next t ∧ t.results = (sweeping 1101).results ++ [1] := ⟨_, rfl, by decide⟩
theorem witness_emits_nothing :
    ∃ t, exec (.poll 3) (sweeping 1100) = .next t ∧ t.results ≠ (sweeping 1100).results ++ [1] := ⟨_, rfl, by decide⟩
theorem witness_ignores_clock : IgnoresClock State.reset (.poll 3) ∧ IgnoresClock (sweeping 0) (.enswp false) := ⟨rfl, rfl⟩
theorem witness_units_never_read : ([⟨1, 2, 3⟩, ⟨4, 5, 6⟩, ⟨7, 8, 9⟩, ⟨0, 0, 1⟩] : List Rgb8).length = State.reset.nUnits := by
  decide
theorem witness_gamma_laws :
    (1022 : Intensity).toNat ≤ (1023 : Intensity).toNat
      ∧ (∀ x y : Intensity, x.toNat ≤ y.toNat → (id x).toNat ≤ (id y).toNat) ∧ id (0 : Intensity) = 0 :=
  ⟨by decide, fun _ _ h => h, rfl⟩
/-- Both sides of the ladder clamp: `full` unclamped at 3 of 4 units, clamped to 1 of 2 units. -/
theorem witness_ladder_full :
    1 ≤ 4 ∧ 3 = (if 4 ≤ (1023 : Intensity).toNat / 256 then 4 - 1 else (1023 : Intensity).toNat / 256)
      ∧ 1 = (if 2 ≤ (512 : Intensity).toNat / 256 then 2 - 1 else (512 : Intensity).toNat / 256) := by decide
theorem witness_ladder_sum :
    (511 : Intensity).toNat < 256 * 2 ∧ (255 : Intensity).toNat ≤ (511 : Intensity).toNat := by decide
theorem witness_ladder_collision : 4 ≤ 4 ∧ (255 : Intensity).toNat < (256 : Intensity).toNat := by decide
theorem witness_ladder_small : 1 ≤ 2 ∧ 256 * 2 ≤ (512 : Intensity).toNat := by decide
theorem witness_frame_entry : ([⟨1, 2, 3⟩, ⟨4, 5, 6⟩] : Frame)[1]? = some ⟨4, 5, 6⟩ := by decide
/-- The hypotheses of the HV2RGB statement. -/
abbrev WheelHyps (h v : BitVec 16) (t pe vc down up : Nat) : Prop :=
  t = min (min h.toNat 3071 / 1023) 2 ∧ pe = min (min h.toNat 3071 - t * 1023) 1023 ∧ vc = min v.toNat 1023
    ∧ down = (1023 - pe) * vc / 1023 ∧ up = pe * vc / 1023

/-- Each wheel segment at its first position, and the last hue. -/
theorem witness_wheel :
    WheelHyps 0 512 0 0 512 512 0 ∧ WheelHyps 1023 512 1 0 512 512 0 ∧ WheelHyps 2046 65535 2 0 1023 1023 0
      ∧ WheelHyps 65535 1023 2 1023 1023 0 1023 := by decide
theorem witness_wheel_range : (3070 : Nat) < 3071 ∧ 3069 ≤ (3071 : Nat) ∧ (3071 : Nat) ≤ 3071 := by decide
theorem witness_elapsed_gap :
    State.now { sweeping 10 with swLast := 0xFFFFFFFF } = 10
      ∧ (10 : BitVec 32).toNat = ((0xFFFFFFFF : BitVec 32).toNat + 11) % 2 ^ 32 := by decide
theorem witness_elapsed_wrap :
    State.swLast { sweeping 0x10 with swLast := 0xFFFFFF00 } = 0xFFFFFF00 ∧ (sweeping 0x10).now = 0x00000010 := by decide
theorem witness_poll_idles : State.reset.swEn = false := by decide
theorem witness_poll_waits :
    (sweeping 1100).swEn = true ∧ ((sweeping 1100).now - (sweeping 1100).swLast).toNat ≤ (sweeping 1100).swInterval.toNat := by
  decide
/-- A step that reaches the stop exactly, and one past it whose 9-bit sum is 256. -/
theorem witness_poll_steps :
    TickElapsed { sweeping 1101 with swCur := 8 }
      ∧ (State.swCur { sweeping 1101 with swCur := 8 }).toNat + (State.swStep { sweeping 1101 with swCur := 8 }).toNat
          ≤ (State.swStop { sweeping 1101 with swCur := 8 }).toNat := by
  unfold TickElapsed; decide
/-- The sweep about to overflow its 8-bit hue. -/
def atTheTop : State := { sweeping 1101 with swCur := 254, swStop := 255 }
theorem witness_poll_finishes :
    TickElapsed atTheTop ∧ atTheTop.swStop.toNat < atTheTop.swCur.toNat + atTheTop.swStep.toNat := by
  unfold TickElapsed; decide
theorem witness_prog_without_extent : State.reset.swStop = State.reset.swStart := by decide
theorem witness_prog_status :
    ∃ t, exec .prog State.reset = .next t ∧ t.results = State.reset.results ++ [0x010000007FC00000]
      ∧ bits 0x010000007FC00000 63 56 = 0x01 := ⟨_, rfl, by decide⟩
theorem witness_prog_percent :
    (sweeping 0).swStop ≠ (sweeping 0).swStart
      ∧ (0 : Int) = ((sweeping 0).swCur.toNat : Int) - (sweeping 0).swStart.toNat
      ∧ (10 : Int) = ((sweeping 0).swStop.toNat : Int) - (sweeping 0).swStart.toNat := by decide
/-- The greatest finite dividend, the least divisor, negative. -/
theorem witness_binary32_operands :
    (0x7F7FFFFF : BitVec 32).toNat / 2 ^ 23 % 256 < 255 ∧ (0x80000001 : BitVec 32).toNat / 2 ^ 23 % 256 < 255
      ∧ magnitude 0x80000001 ≠ 0 := by decide
theorem witness_binary32_order :
    (0x007FFFFF : BitVec 32).toNat < 0x7F800000 ∧ (0x00800000 : BitVec 32).toNat < 0x7F800000
      ∧ (0x007FFFFF : BitVec 32).toNat < (0x00800000 : BitVec 32).toNat := by decide
theorem witness_progress_range : (254 : Nat) ≤ 255 ∧ 0 < (255 : Nat) ∧ (255 : Nat) ≤ 255 ∧ (1 : Nat) ≤ 254 := by decide
theorem witness_small_integer : (-255 : Int).natAbs ≤ 255 := by decide
theorem witness_rounding : 0 < 3 ∧ (rne32 false 1 3).toNat < 0x7F800000 ∧ (0x3EAAAAAA : BitVec 32).toNat < 0x7F800000 := by
  decide
theorem witness_idle_polls :
    State.nUnits { State.reset with inputs := polls [(0, 5), (255, 0)] } ≠ 0 ∧ State.reset.swEn = false
      ∧ State.inputs { State.reset with inputs := polls [(0, 5), (255, 0)] } = polls [(0, 5), (255, 0)] ++ [] := by decide
theorem witness_waiting_poll :
    ∃ t, (sweeping 1100).swEn = true ∧ exec (.poll 0) (sweeping 1100) = .next t
      ∧ t.results = (sweeping 1100).results ++ [3] := ⟨_, by decide, rfl, by decide⟩
/-- The polls of the source's sweep 0 to 10 by 2 at 100 ms: five elapsed ticks and the sixth, which finishes. -/
def sixTicks : List (BitVec 8 × Millis) := [(0, 1101), (0, 1202), (0, 1303), (0, 1404), (0, 1505), (0, 1606)]
/-- The host about to configure, enable and poll that sweep. -/
def sweepAhead : State :=
  { State.reset with inputs := asInput (.cfgswp 0 10 2 100) 1000 :: asInput (.enswp true) 1000 :: polls sixTicks }
theorem witness_sweep_terminates :
    sweepAhead.nUnits ≠ 0 ∧ 0 < (2 : BitVec 8).toNat
      ∧ 5 = ((10 : BitVec 8).toNat - (0 : BitVec 8).toNat) / (2 : BitVec 8).toNat ∧ sixTicks.length = 5 + 1
      ∧ Ticking 100 1000 (sixTicks.map Prod.snd)
      ∧ sweepAhead.inputs = asInput (.cfgswp 0 10 2 100) 1000 :: asInput (.enswp true) 1000 :: polls sixTicks :=
  ⟨by decide, by decide, by decide, by decide, by simp only [sixTicks, List.map, Ticking]; decide, rfl⟩
theorem witness_sweep_counts :
    sweepAhead.nUnits ≠ 0
      ∧ sweepAhead.inputs = asInput (.cfgswp 0 10 2 100) 1000 :: asInput (.enswp true) 1000 :: polls sixTicks :=
  ⟨by decide, rfl⟩
/-- An Enabled sweep of step 0 with one elapsed tick ahead. -/
def endlessSweep : State := { sweeping 0 with swStep := 0, inputs := polls [(0, 1101)] }
theorem witness_never_ends_step_zero :
    SweepInv endlessSweep ∧ endlessSweep.swEn = true ∧ endlessSweep.swStep = 0
      ∧ endlessSweep.swStart.toNat ≤ endlessSweep.swStop.toNat ∧ endlessSweep.inputs = polls [(0, 1101)]
      ∧ Ticking endlessSweep.swInterval endlessSweep.swLast [1101] :=
  ⟨⟨by decide, by decide, by decide, by decide⟩, rfl, rfl, by decide, rfl, by simp only [Ticking]; decide⟩
/-- An Enabled sweep of the longest interval. -/
def patientSweep : State := { sweeping 0 with swInterval := 0xFFFFFFFF, inputs := polls [(0, 0xFFFFFFFF)] }
theorem witness_never_ends_interval :
    patientSweep.nUnits ≠ 0 ∧ patientSweep.swEn = true ∧ patientSweep.swInterval.toNat = 2 ^ 32 - 1
      ∧ patientSweep.inputs = polls [(0, 0xFFFFFFFF)] := ⟨by decide, rfl, by decide, rfl⟩
/-- Two steps at 1101 and 1202 with a waiting poll between them. -/
def twoSteps : State :=
  { sweeping 0 with inputs := asInput (.poll 0) 1101 :: polls [(0, 1150)] ++ [asInput (.poll 0) 1202] }
theorem witness_step_rate :
    ∃ u, twoSteps.inputs = asInput (.poll 0) 1101 :: polls [(0, 1150)] ++ [asInput (.poll 0) 1202]
      ∧ runSteps 3 twoSteps = .next u ∧ u.results = twoSteps.results ++ [1] ++ List.replicate 1 3 ++ [1]
      ∧ (1101 : Millis).toNat < (1202 : Millis).toNat := ⟨_, rfl, rfl, by decide, by decide⟩

end Sys2Proof.Tests
end

/-! SUPPORT. A step that takes a command word returns one result word and emits at most one frame, of the next state's
units (spec/00_scope.md R5, spec/30_encoding.md R78). -/

namespace Sys2Proof.Machine

section
variable {s : State} {cmd : Word} {now : Millis} {rest : List HostInput}

/-- A step on a legal word executes its command with the word taken and its clock sample in place (R5). -/
theorem step_of_decode_ok {i : Instr} (hn : s.nUnits ≠ 0) (hi : s.inputs = .command cmd now :: rest)
    (hd : decode cmd = .ok i) : step s = exec i { s with inputs := rest, now := now } := by
  simp only [step, fetch, hn, hi, hd, if_false]

/-- A step on an illegal word answers ERR_ILLEGAL with the word taken (R75, R211). -/
theorem step_of_decode_error {e : DecodeError} (hn : s.nUnits ≠ 0) (hi : s.inputs = .command cmd now :: rest)
    (hd : decode cmd = .error e) : step s = .next (State.raiseIllegal { s with inputs := rest, now := now }) := by
  simp only [step, fetch, hn, hi, hd, if_false]

end

/-- From `s` to `t` the engine returned one result word, and emitted nothing or the frame of `t`'s units (R5, R78). -/
structure AnswersOnce (s t : State) : Prop where
  oneResult : ∃ res, t.results = s.results ++ [res]
  atMostOneFrame : t.frames = s.frames ∨ t.frames = s.frames ++ [t.units]

section
variable {s u : State} (status : Status) (payload : BitVec 56)

/-- Answering after register writes alone. -/
theorem AnswersOnce.of_quiet (hr : u.results = s.results) (hf : u.frames = s.frames) :
    AnswersOnce s (u.answer status payload) :=
  ⟨⟨_, by rw [State.answer_results, hr]⟩, .inl (by rw [State.answer_frames, hf])⟩

/-- Answering after the units were written and their frame emitted (R106, R107, R132). -/
theorem AnswersOnce.of_emitted (hr : u.results = s.results) (hf : u.frames = s.frames ++ [u.units]) :
    AnswersOnce s (u.answer status payload) :=
  ⟨⟨_, by rw [State.answer_results, hr]⟩, .inr (by rw [State.answer_frames, State.answer_units, hf])⟩

end

/-- `raise Illegal` returns its one result and emits nothing (R211). -/
theorem raiseIllegal_answersOnce (s : State) : AnswersOnce s s.raiseIllegal := .of_quiet _ _ rfl rfl

/-- A tick answers once: with the stepped frame, or with none when it finishes the sweep (R177). -/
theorem sweepTick_answersOnce (off : BitVec 8) (s : State) : AnswersOnce s (sweepTick off s) := by
  obtain ⟨-, ht⟩ | ⟨-, ht⟩ := sweepTick_cases off s
  · rw [ht]; exact .of_emitted _ _ rfl rfl
  · rw [ht]; exact .of_quiet _ _ rfl rfl

/-- Every command answers once; SETRGB, SETHV, ALLOFF and a stepping POLL are the ones that emit (R54). -/
theorem exec_answersOnce {i : Instr} {s t : State} (h : exec i s = .next t) : AnswersOnce s t := by
  cases i with
  | setrgb r g b => cases h; exact .of_emitted _ _ rfl rfl
  | sethv hue val => cases h; exact .of_emitted _ _ rfl rfl
  | alloff => cases h; exact .of_emitted _ _ rfl rfl
  | setgamma en => cases h; exact .of_quiet _ _ rfl rfl
  | cfgswp start stop step ivl => cases h; exact .of_quiet _ _ rfl rfl
  | enswp en => cases en <;> cases h <;> exact .of_quiet _ _ rfl rfl
  | rstswp => cases h; exact .of_quiet _ _ rfl rfl
  | poll off =>
    change execPoll off s = .next t at h
    obtain ⟨-, hp⟩ | ⟨-, -, hp⟩ | ⟨-, -, hp⟩ := execPoll_cases off s
    · cases hp.symm.trans h; exact .of_quiet _ _ rfl rfl
    · cases hp.symm.trans h; exact .of_quiet _ _ rfl rfl
    · cases hp.symm.trans h; exact sweepTick_answersOnce off s
  | prog =>
    change execProg s = .next t at h
    obtain ⟨-, hp⟩ | ⟨-, hp⟩ := execProg_cases s
    · cases hp.symm.trans h; exact .of_quiet _ _ rfl rfl
    · cases hp.symm.trans h; exact .of_quiet _ _ rfl rfl
  | hv2rgb h v => cases h; exact .of_quiet _ _ rfl rfl

/-- A step on a command word takes that word and answers once, legal or not. -/
theorem step_command_answersOnce {s : State} {cmd : Word} {now : Millis} {rest : List HostInput} (hn : s.nUnits ≠ 0)
    (hi : s.inputs = .command cmd now :: rest) : ∃ t, step s = .next t ∧ t.inputs = rest ∧ AnswersOnce s t := by
  cases hd : decode cmd with
  | ok i =>
    obtain ⟨t, ht, -, hin, -⟩ := exec_next i { s with inputs := rest, now := now }
    have hone := exec_answersOnce ht
    exact ⟨t, (step_of_decode_ok hn hi hd).trans ht, hin, hone.oneResult, hone.atMostOneFrame⟩
  | error e =>
    have hone := raiseIllegal_answersOnce { s with inputs := rest, now := now }
    exact ⟨_, step_of_decode_error hn hi hd, rfl, hone.oneResult, hone.atMostOneFrame⟩

/-- Settles O12: whatever the word, its step answers once. -/
theorem oneResultAndAtMostOneFrame : Obligations.OneResultAndAtMostOneFrame := by
  intro s cmd now rest hn hi
  obtain ⟨t, ht, hin, ⟨res, hres⟩, hframes⟩ := step_command_answersOnce hn hi
  exact ⟨t, res, ht, hin, hres, hframes⟩

end Sys2Proof.Machine

/-! SUPPORT. Every step keeps the invariants of the sweep registers, and a sweep whose start is above its stop finishes
at its first elapsed tick (spec/10_state.md R37). -/

namespace Sys2Proof.Machine

/-- The number of units is fixed by the fixture: no step changes it (R8). -/
theorem step_nUnits {s t : State} (h : step s = .next t) : t.nUnits = s.nUnits := by
  obtain ⟨-, ⟨-, rfl⟩ | ⟨rest, -, rfl⟩ | ⟨cmd, now, rest, i, -, -, he⟩ | ⟨cmd, now, rest, e, -, -, rfl⟩⟩ := step_cases h
  · rfl
  · exact State.takeReset_nUnits _
  · obtain ⟨u, hu, hn, -, -⟩ := exec_next i { s with inputs := rest, now := now }
    cases hu.symm.trans he
    exact hn
  · exact State.raiseIllegal_nUnits _

section
variable {s t : State}

/-- The invariants speak of the number of units, SW_START, SW_STOP and SW_CUR only. -/
theorem SweepInv.of_same_registers (hs : SweepInv s) (hn : t.nUnits = s.nUnits) (hstart : t.swStart = s.swStart)
    (hstop : t.swStop = s.swStop) (hcur : t.swCur = s.swCur) : SweepInv t where
  hasUnit := by rw [hn]; exact hs.hasUnit
  startLeCur := by rw [hstart, hcur]; exact hs.startLeCur
  curLeStop := by rw [hstart, hstop, hcur]; exact hs.curLeStop
  curAtStart := by rw [hstart, hstop, hcur]; exact hs.curAtStart

/-- A sweep that stands at its start meets the invariants whatever its stop: CFGSWP, RSTSWP and reset put it there
(R172, R174, R240). -/
theorem SweepInv.of_cur_eq_start (hn : 1 ≤ t.nUnits) (hcur : t.swCur = t.swStart) : SweepInv t where
  hasUnit := hn
  startLeCur := by rw [hcur]
  curLeStop := by rw [hcur]; exact id
  curAtStart _ := hcur

/-- Under the invariants a tick that steps leaves SW_CUR between the start and the stop, and stores the 9-bit sum
without truncation (R177). -/
theorem SweepInv.of_stepped (hs : SweepInv s) (hnext : nextHue s ≤ s.swStop.toNat) (hn : t.nUnits = s.nUnits)
    (hstart : t.swStart = s.swStart) (hstop : t.swStop = s.swStop) (hcur : t.swCur = BitVec.ofNat 8 (nextHue s)) :
    SweepInv t := by
  have hcurNat : t.swCur.toNat = nextHue s := by
    rw [hcur, BitVec.toNat_ofNat]
    exact Nat.mod_eq_of_lt (Nat.lt_of_le_of_lt hnext s.swStop.isLt)
  have hle : s.swStart.toNat ≤ nextHue s := Nat.le_add_right_of_le hs.startLeCur
  refine ⟨by rw [hn]; exact hs.hasUnit, ?_, ?_, ?_⟩
  · rw [hstart, hcurNat]; exact hle
  · rw [hstop, hcurNat]; exact fun _ => hnext
  · rw [hstart, hstop]; exact fun habove => absurd (Nat.le_trans hle hnext) (Nat.not_le_of_lt habove)

/-- A tick keeps the invariants: it steps within the range, or finishes with SW_CUR as it was (R177). -/
theorem sweepTick_keeps_sweepInv (hs : SweepInv s) (off : BitVec 8) (hn : (sweepTick off s).nUnits = s.nUnits) :
    SweepInv (sweepTick off s) := by
  obtain ⟨hnext, ht⟩ | ⟨-, ht⟩ := sweepTick_cases off s
  · rw [ht] at hn ⊢; exact hs.of_stepped hnext hn rfl rfl rfl
  · rw [ht]; exact hs.of_same_registers rfl rfl rfl rfl

/-- Every command keeps the invariants. Only CFGSWP, RSTSWP and a stepping POLL write the registers they speak of. -/
theorem exec_keeps_sweepInv (hs : SweepInv s) {i : Instr} (h : exec i s = .next t) (hn : t.nUnits = s.nUnits) :
    SweepInv t := by
  have hunit : 1 ≤ t.nUnits := by rw [hn]; exact hs.hasUnit
  cases i with
  | setrgb r g b => cases h; exact hs.of_same_registers hn rfl rfl rfl
  | sethv hue val => cases h; exact hs.of_same_registers hn rfl rfl rfl
  | alloff => cases h; exact hs.of_same_registers hn rfl rfl rfl
  | setgamma en => cases h; exact hs.of_same_registers hn rfl rfl rfl
  | cfgswp start stop step ivl => cases h; exact .of_cur_eq_start hunit rfl
  | enswp en => cases en <;> cases h <;> exact hs.of_same_registers hn rfl rfl rfl
  | rstswp => cases h; exact .of_cur_eq_start hunit rfl
  | poll off =>
    change execPoll off s = .next t at h
    obtain ⟨-, hp⟩ | ⟨-, -, hp⟩ | ⟨-, -, hp⟩ := execPoll_cases off s
    · cases hp.symm.trans h; exact hs.of_same_registers hn rfl rfl rfl
    · cases hp.symm.trans h; exact hs.of_same_registers hn rfl rfl rfl
    · cases hp.symm.trans h; exact sweepTick_keeps_sweepInv hs off hn
  | prog =>
    change execProg s = .next t at h
    obtain ⟨-, hp⟩ | ⟨-, hp⟩ := execProg_cases s
    · cases hp.symm.trans h; exact hs.of_same_registers hn rfl rfl rfl
    · cases hp.symm.trans h; exact hs.of_same_registers hn rfl rfl rfl
  | hv2rgb h v => cases h; exact hs.of_same_registers hn rfl rfl rfl

/-- Every step keeps the invariants, whatever the host presents: nothing, `rst`, a command or an illegal word. -/
theorem step_keeps_sweepInv (hs : SweepInv s) (h : step s = .next t) : SweepInv t := by
  have hn := step_nUnits h
  obtain ⟨-, ⟨-, rfl⟩ | ⟨rest, -, rfl⟩ | ⟨cmd, now, rest, i, -, -, he⟩ | ⟨cmd, now, rest, e, -, -, rfl⟩⟩ := step_cases h
  · exact hs
  · exact .of_cur_eq_start (by rw [hn]; exact hs.hasUnit) rfl
  · have htaken : SweepInv { s with inputs := rest, now := now } := hs.of_same_registers rfl rfl rfl rfl
    exact exec_keeps_sweepInv htaken he hn
  · exact hs.of_same_registers hn rfl rfl rfl

/-- The current hue lies in the inclusive range exactly when the range is not empty (R37). -/
theorem SweepInv.cur_in_range_iff (hs : SweepInv s) :
    (s.swStart.toNat ≤ s.swCur.toNat ∧ s.swCur.toNat ≤ s.swStop.toNat) ↔ s.swStart.toNat ≤ s.swStop.toNat :=
  ⟨fun ⟨hstart, hstop⟩ => Nat.le_trans hstart hstop, fun h => ⟨hs.startLeCur, hs.curLeStop h⟩⟩

/-- The result word of a POLL that finishes (R80, R82). -/
theorem resultWord_finished : resultWord .ok (outcomePayload .finished) = 2 := by decide

/-- A POLL of an elapsed tick whose next hue is past the stop finishes the sweep: disabled, stamped, no frame (R177). -/
theorem exec_poll_finishes (off : BitVec 8) (htick : TickElapsed s) (hpast : s.swStop.toNat < nextHue s) :
    exec (.poll off) s = .next { s with swEn := false, swLast := s.now, results := s.results ++ [2] } := by
  obtain ⟨hen, hel⟩ := htick
  change execPoll off s = _
  obtain ⟨hdis, -⟩ | ⟨-, hwait, -⟩ | ⟨-, -, hp⟩ := execPoll_cases off s
  · exact absurd hen (by simp [hdis])
  · exact absurd hel (Nat.not_lt_of_le hwait)
  · obtain ⟨hnext, -⟩ | ⟨-, ht⟩ := sweepTick_cases off s
    · exact absurd hpast (Nat.not_lt_of_le hnext)
    · rw [hp, ht, State.answer, resultWord_finished]; rfl

/-- When the start is above the stop, every next hue is past the stop (R37). -/
theorem SweepInv.stop_lt_nextHue (hs : SweepInv s) (habove : s.swStop.toNat < s.swStart.toNat) :
    s.swStop.toNat < nextHue s :=
  Nat.lt_of_lt_of_le habove (Nat.le_add_right_of_le hs.startLeCur)

end

/-- Settles O15: the invariants are kept, they decide when the current hue is in the range, and they put the first next
hue of a sweep whose start is above its stop past the stop. INTENSITY is bounded by its 10 bits (R24). -/
theorem stepKeepsSweepInvariant : Obligations.StepKeepsSweepInvariant :=
  ⟨fun _ t hs h => ⟨step_keeps_sweepInv hs h, step_nUnits h, Nat.le_of_lt_succ t.intensity.isLt⟩,
    fun _ hs => hs.cur_in_range_iff,
    fun _ off hs habove htick => exec_poll_finishes off htick (hs.stop_lt_nextHue habove)⟩

end Sys2Proof.Machine

/-! SUPPORT. The decoder against the rules it implements (spec/30_encoding.md R71, R74, R75): the words it accepts are the
words with an assigned opcode and no reserved bit set, which are the words that match a row of the opcode table. -/

namespace Sys2Proof.Laws

/-- The lowest bit that R71 reserves under an assigned opcode; it and every bit above it up to bit 55 are reserved.
CFGSWP reserves none, so its entry is 56, the opcode's own lowest bit. -/
def lowestReserved : Nat → Nat
  | 0x01 => 48
  | 0x02 => 24
  | 0x04 => 1
  | 0x05 => 56
  | 0x06 => 1
  | 0x08 => 8
  | 0x0A => 32
  | _ => 0

theorem lowestReserved_le (op : Nat) : lowestReserved op ≤ 56 := by
  unfold lowestReserved
  split <;> omega

/-- The opcode is assigned and no bit it reserves is set (R71, R74): what `IllegalWord` denies, said once for all
opcodes (`illegalWord_iff_not_legalWord`). -/
def LegalWord (cmd : Word) : Prop :=
  (1 ≤ bits cmd 63 56 ∧ bits cmd 63 56 ≤ 10) ∧ bits cmd 55 (lowestReserved (bits cmd 63 56)) = 0

/-- The opcode is unassigned, or one of the ten of R71. -/
theorem opcode_cases (cmd : Word) :
    (bits cmd 63 56 = 0 ∨ 10 < bits cmd 63 56)
      ∨ bits cmd 63 56 = 1 ∨ bits cmd 63 56 = 2 ∨ bits cmd 63 56 = 3 ∨ bits cmd 63 56 = 4 ∨ bits cmd 63 56 = 5
      ∨ bits cmd 63 56 = 6 ∨ bits cmd 63 56 = 7 ∨ bits cmd 63 56 = 8 ∨ bits cmd 63 56 = 9 ∨ bits cmd 63 56 = 10 := by
  omega

/-- The clauses of R75, one for each opcode with reserved bits, deny legality opcode by opcode. -/
theorem illegalWord_iff_not_legalWord (cmd : Word) : IllegalWord cmd ↔ ¬ LegalWord cmd := by
  have hnone : bits cmd 55 56 = 0 := Nat.mod_one _
  unfold IllegalWord LegalWord
  rcases opcode_cases cmd with h | h | h | h | h | h | h | h | h | h | h
  · exact iff_of_true (h.imp_right .inl) fun ⟨hassigned, _⟩ => by omega
  all_goals simp [h, lowestReserved, hnone]

/-! ## What the decoder answers -/

/-- The decoder's answer on `cmd` is the one R74 asks for: the command whose fields `cmd` holds when `cmd` is legal, a
rejection when it is not. -/
def DecodedByRule (cmd : Word) : Prop :=
  (LegalWord cmd ∧ ∃ i, decode cmd = .ok i ∧ ReadsFrom cmd i) ∨ (¬ LegalWord cmd ∧ ∃ e, decode cmd = .error e)

/-- An assigned opcode under which the decoder tests exactly the bits that R71 reserves, and reads the fields R71 gives. -/
theorem DecodedByRule.of_unlessReserved {cmd : Word} {op lo len : Nat} {i : Instr} (h : bits cmd 63 56 = op)
    (hd : decode cmd = unlessReserved cmd lo len i) (hop : 1 ≤ op ∧ op ≤ 10) (hlo : lowestReserved op = lo)
    (hlen : 56 - lo = len) (hread : ReadsFrom cmd i) : DecodedByRule cmd := by
  subst h hlo hlen
  obtain ⟨hzero, hok⟩ | ⟨hset, herr⟩ := unlessReserved_cases cmd _ _ i
  · exact .inl ⟨⟨hop, hzero⟩, i, hd.trans hok, hread⟩
  · exact .inr ⟨fun ⟨_, hzero⟩ => hset hzero, _, hd.trans herr⟩

/-- `decode` follows R74 on every word: the unassigned opcodes, and the ten with their fields. -/
theorem decode_byRule (cmd : Word) : DecodedByRule cmd := by
  have hop : (opcodeOf cmd).toNat = bits cmd 63 56 := opcodeOf_toNat cmd
  have hbit : (cmd.getLsbD 0).toNat = bits cmd 0 0 := by rw [bit0_toNat, bits]; norm_num
  rcases opcode_cases cmd with h | h | h | h | h | h | h | h | h | h | h
  · exact .inr ⟨fun ⟨hassigned, _⟩ => by omega, _, decode_unassigned (by rw [hop]; exact h)⟩
  · exact .of_unlessReserved h (decode_op1 (hop.trans h)) (by decide) rfl rfl
      ⟨h, field_toNat cmd 32 16, field_toNat cmd 16 16, field_toNat cmd 0 16⟩
  · exact .of_unlessReserved h (decode_op2 (hop.trans h)) (by decide) rfl rfl
      ⟨h, field_toNat cmd 16 8, field_toNat cmd 0 16⟩
  · exact .of_unlessReserved h (decode_op3 (hop.trans h)) (by decide) rfl rfl h
  · exact .of_unlessReserved h (decode_op4 (hop.trans h)) (by decide) rfl rfl ⟨h, hbit⟩
  · exact .inl ⟨⟨by omega, by rw [h]; exact Nat.mod_one _⟩, _, decode_op5 (hop.trans h),
      h, field_toNat cmd 48 8, field_toNat cmd 40 8, field_toNat cmd 32 8, field_toNat cmd 0 32⟩
  · exact .of_unlessReserved h (decode_op6 (hop.trans h)) (by decide) rfl rfl ⟨h, hbit⟩
  · exact .of_unlessReserved h (decode_op7 (hop.trans h)) (by decide) rfl rfl h
  · exact .of_unlessReserved h (decode_op8 (hop.trans h)) (by decide) rfl rfl ⟨h, field_toNat cmd 0 8⟩
  · exact .of_unlessReserved h (decode_op9 (hop.trans h)) (by decide) rfl rfl h
  · exact .of_unlessReserved h (decode_op10 (hop.trans h)) (by decide) rfl rfl
      ⟨h, field_toNat cmd 16 16, field_toNat cmd 0 16⟩

/-- A legal word decodes to the command whose fields it holds (R74). -/
theorem LegalWord.decode_ok {cmd : Word} (h : LegalWord cmd) : ∃ i, decode cmd = .ok i ∧ ReadsFrom cmd i := by
  obtain ⟨-, hok⟩ | ⟨hnot, -⟩ := decode_byRule cmd
  · exact hok
  · exact absurd h hnot

/-- An illegal word is rejected (R74, R75). -/
theorem decode_error_of_illegalWord {cmd : Word} (h : IllegalWord cmd) : ∃ e, decode cmd = .error e := by
  obtain ⟨hlegal, -⟩ | ⟨-, herr⟩ := decode_byRule cmd
  · exact absurd hlegal ((illegalWord_iff_not_legalWord cmd).mp h)
  · exact herr

/-- The decoder accepts exactly the legal words (R74). -/
theorem decode_ok_iff_legalWord (cmd : Word) : (∃ i, decode cmd = .ok i) ↔ LegalWord cmd := by
  refine ⟨fun ⟨i, hi⟩ => ?_, fun h => h.decode_ok.imp fun _ hi => hi.1⟩
  obtain ⟨hlegal, -⟩ | ⟨-, e, he⟩ := decode_byRule cmd
  · exact hlegal
  · exact absurd (hi.symm.trans he) nofun

/-! ## The rows of the opcode table -/

/-- The opcode of a row, the value of its pattern's top byte (R70). -/
def rowOpcode (row : OpcodeRow) : Nat := bits row.pattern 63 56

/-- Each row's mask covers the opcode and the bits R71 reserves under it, and its pattern is that opcode above zeros. -/
theorem opcodeTable_row : ∀ row ∈ opcodeTable,
    row.mask = BitVec.allOnes 64 <<< lowestReserved (rowOpcode row) ∧ row.pattern.toNat = rowOpcode row * 2 ^ 56
      ∧ 1 ≤ rowOpcode row ∧ rowOpcode row ≤ 10 := by
  decide

/-- Every assigned opcode has a row. -/
theorem exists_row_of_opcode {op : Nat} (h : 1 ≤ op ∧ op ≤ 10) : ∃ row ∈ opcodeTable, rowOpcode row = op := by
  have hall : ∀ op < 11, 1 ≤ op → ∃ row ∈ opcodeTable, rowOpcode row = op := by decide
  exact hall op (by omega) h.1

/-- The rows' opcodes differ (R74). -/
theorem row_eq_of_opcode_eq : ∀ row ∈ opcodeTable, ∀ row' ∈ opcodeTable, rowOpcode row = rowOpcode row' → row = row' := by
  decide

/-- A mask of all bits from `lo` up clears the bits below `lo`. -/
theorem and_allOnes_shiftLeft_toNat (x : Word) (lo : Nat) :
    (x &&& BitVec.allOnes 64 <<< lo).toNat = x.toNat / 2 ^ lo * 2 ^ lo := by
  rw [← BitVec.shiftLeft_ushiftRight, BitVec.toNat_shiftLeft, BitVec.toNat_ushiftRight, Nat.shiftRight_eq_div_pow,
    Nat.shiftLeft_eq]
  exact Nat.mod_eq_of_lt (Nat.lt_of_le_of_lt (Nat.div_mul_le_self _ _) x.isLt)

/-- The bits from `lo` up hold `op` above bit 56 and zeros below it exactly when the two fields do. -/
theorem bits_from_eq_iff (cmd : Word) (op : Nat) {lo : Nat} (hlo : lo ≤ 56) :
    cmd.toNat / 2 ^ lo * 2 ^ lo = op * 2 ^ 56 ↔ bits cmd 63 56 = op ∧ bits cmd 55 lo = 0 := by
  have hpow : 2 ^ 56 = 2 ^ (56 - lo) * 2 ^ lo := by rw [← Nat.pow_add, Nat.sub_add_cancel hlo]
  have htop : bits cmd 63 56 = cmd.toNat / 2 ^ lo / 2 ^ (56 - lo) := by
    have hlt : cmd.toNat / 2 ^ 56 < 2 ^ 8 := by omega
    rw [Nat.div_div_eq_div_mul, Nat.mul_comm, ← hpow]
    exact Nat.mod_eq_of_lt hlt
  rw [htop, bits, hpow, ← Nat.mul_assoc, Nat.mul_left_inj (Nat.two_pow_pos lo).ne']
  constructor
  · intro h
    exact ⟨by rw [h, Nat.mul_div_cancel _ (Nat.two_pow_pos _)], by rw [h]; exact Nat.mul_mod_left _ _⟩
  · rintro ⟨hdiv, hmod⟩
    rw [← hdiv]
    exact (Nat.div_mul_cancel (Nat.dvd_of_mod_eq_zero hmod)).symm

/-- A word matches a row exactly when it has the row's opcode and no bit reserved under it (R74). -/
theorem matches_iff {row : OpcodeRow} (hrow : row ∈ opcodeTable) (cmd : Word) :
    row.matches cmd = true ↔
      bits cmd 63 56 = rowOpcode row ∧ bits cmd 55 (lowestReserved (rowOpcode row)) = 0 := by
  obtain ⟨hmask, hpattern, -, -⟩ := opcodeTable_row row hrow
  rw [OpcodeRow.matches, beq_iff_eq, ← BitVec.toNat_inj, hmask, hpattern, and_allOnes_shiftLeft_toNat]
  exact bits_from_eq_iff cmd _ (lowestReserved_le _)

/-- The legal words are the words that match a row (R74). -/
theorem legalWord_iff_matches (cmd : Word) : LegalWord cmd ↔ ∃ row ∈ opcodeTable, row.matches cmd = true := by
  constructor
  · rintro ⟨hop, hreserved⟩
    obtain ⟨row, hrow, heq⟩ := exists_row_of_opcode hop
    exact ⟨row, hrow, (matches_iff hrow cmd).mpr ⟨heq.symm, by rw [heq]; exact hreserved⟩⟩
  · rintro ⟨row, hrow, hmatch⟩
    obtain ⟨heq, hreserved⟩ := (matches_iff hrow cmd).mp hmatch
    obtain ⟨-, -, hop⟩ := opcodeTable_row row hrow
    exact ⟨by rw [heq]; exact hop, by rw [heq]; exact hreserved⟩

/-- No word matches two rows, because a word has one opcode and the rows' opcodes differ (R74). -/
theorem row_eq_of_matches {row row' : OpcodeRow} {cmd : Word} (hrow : row ∈ opcodeTable) (hrow' : row' ∈ opcodeTable)
    (h : row.matches cmd = true) (h' : row'.matches cmd = true) : row = row' := by
  obtain ⟨hop, -⟩ := (matches_iff hrow cmd).mp h
  obtain ⟨hop', -⟩ := (matches_iff hrow' cmd).mp h'
  exact row_eq_of_opcode_eq row hrow row' hrow' (hop.symm.trans hop')

/-- PROG has one word: all its operand bits are reserved (R71). -/
theorem decode_eq_prog_iff (cmd : Word) : decode cmd = .ok .prog ↔ cmd = 0x0900000000000000 := by
  constructor
  · intro hd
    obtain ⟨⟨-, hreserved⟩, i, hi, hread⟩ | ⟨-, e, he⟩ := decode_byRule cmd
    · cases hd.symm.trans hi
      have hop : bits cmd 63 56 = 9 := hread
      rw [hop] at hreserved
      have hnat := (bits_from_eq_iff cmd 9 (Nat.zero_le 56)).mpr ⟨hop, hreserved⟩
      rw [Nat.pow_zero, Nat.div_one, Nat.mul_one] at hnat
      exact BitVec.eq_of_toNat_eq hnat
    · cases hd.symm.trans he
  · rintro rfl
    decide

/-- Settles O3: the illegal words, the decoder and the opcode table are each compared with `LegalWord`. -/
theorem decodeReadsTheOpcodeTable : Obligations.DecodeReadsTheOpcodeTable := fun cmd =>
  ⟨decode_error_of_illegalWord,
    fun h => LegalWord.decode_ok (not_not.mp (mt (illegalWord_iff_not_legalWord cmd).mpr h)),
    (decode_ok_iff_legalWord cmd).trans (legalWord_iff_matches cmd),
    fun _ hrow _ hrow' h h' => row_eq_of_matches hrow hrow' h h'⟩

end Sys2Proof.Laws

/-! SUPPORT. The status a command word reports and the outcome a POLL reports (spec/30_encoding.md R81, R82; spec/
60_exceptions.md R214). -/

namespace Sys2Proof.Machine

open Sys2Proof.Laws

/-- A POLL returns OK with the code of one of the four outcomes (R80, R82). -/
theorem execPoll_outcome (off : BitVec 8) (s : State) :
    ∃ t o, execPoll off s = .next t ∧ t.results = s.results ++ [resultWord .ok (outcomePayload o)] := by
  obtain ⟨-, hp⟩ | ⟨-, -, hp⟩ | ⟨-, -, hp⟩ := execPoll_cases off s
  · exact ⟨_, .idle, hp, rfl⟩
  · exact ⟨_, .waiting, hp, rfl⟩
  · obtain ⟨-, ht⟩ | ⟨-, ht⟩ := sweepTick_cases off s
    · exact ⟨_, .stepped, hp, by rw [ht]; rfl⟩
    · exact ⟨_, .finished, hp, by rw [ht]; rfl⟩

/-- The result word of a POLL is its outcome code alone: the status OK is zero (R80, R81). -/
theorem resultWord_outcomePayload (o : StepOutcome) :
    resultWord .ok (outcomePayload o) = BitVec.setWidth 64 (outcomeCode o) := by
  cases o <;> decide

/-- Settles O45: each branch of POLL names its outcome. -/
theorem pollOutcomesAreExhaustive : Obligations.PollOutcomesAreExhaustive := by
  refine ⟨fun off s => ?_, rfl, rfl, rfl, rfl⟩
  obtain ⟨t, o, ht, hres⟩ := execPoll_outcome off s
  exact ⟨t, o, ht, by rw [hres, resultWord_outcomePayload]⟩

/-- The status of a command: ERR_DIV0 for a PROG without extent, else OK (R81, R212, R214). -/
def statusOf (i : Instr) (s : State) : Status :=
  if i = .prog ∧ s.swStop = s.swStart then .errDiv0 else .ok

theorem statusOf_of_ne_prog {i : Instr} (h : i ≠ .prog) (s : State) : statusOf i s = .ok :=
  if_neg fun hprog => h hprog.1

/-- The status stands in the top byte of a result word (R80). -/
theorem resultWord_status (st : Status) (p : BitVec 56) : bits (resultWord st p) 63 56 = (statusCode st).toNat := by
  have hword := resultWord_toNat st p
  unfold bits
  omega

/-- Every command returns one result word, with the status `statusOf` gives it, whatever its operands (R81, R214). -/
theorem exec_status (i : Instr) (s : State) :
    ∃ t p, exec i s = .next t ∧ t.results = s.results ++ [resultWord (statusOf i s) p] := by
  by_cases hprog : i = .prog
  · subst hprog
    obtain ⟨hext, hp⟩ | ⟨hext, hp⟩ := execProg_cases s
    · exact ⟨_, _, hp, by rw [statusOf, if_pos ⟨rfl, hext⟩]; rfl⟩
    · exact ⟨_, _, hp, by rw [statusOf, if_neg fun h => hext h.2]; rfl⟩
  · rw [statusOf_of_ne_prog hprog]
    cases i with
    | setrgb r g b => exact ⟨_, _, rfl, rfl⟩
    | sethv hue val => exact ⟨_, _, rfl, rfl⟩
    | alloff => exact ⟨_, _, rfl, rfl⟩
    | setgamma en => exact ⟨_, _, rfl, rfl⟩
    | cfgswp start stop step ivl => exact ⟨_, _, rfl, rfl⟩
    | enswp en => cases en <;> exact ⟨_, _, rfl, rfl⟩
    | rstswp => exact ⟨_, _, rfl, rfl⟩
    | poll off =>
      obtain ⟨t, o, ht, hres⟩ := execPoll_outcome off s
      exact ⟨t, _, ht, hres⟩
    | prog => exact absurd rfl hprog
    | hv2rgb h v => exact ⟨_, _, rfl, rfl⟩

/-- Settles O13: a legal word reports its command's status, and PROG's one word alone can report ERR_DIV0; an illegal
word reports ERR_ILLEGAL. -/
theorem statusOfEveryWord : Obligations.StatusOfEveryWord := by
  intro s cmd now rest hn hi
  obtain ⟨hlegal, i, hd, -⟩ | ⟨hnot, e, hd⟩ := decode_byRule cmd
  · have hprog : i = .prog ↔ cmd = 0x0900000000000000 := by rw [← decode_eq_prog_iff, hd, Except.ok.injEq]
    obtain ⟨t, p, ht, hres⟩ := exec_status i { s with inputs := rest, now := now }
    refine ⟨t, _, (step_of_decode_ok hn hi hd).trans ht, hres, fun hill => ?_, fun hword hext => ?_, fun _ hother => ?_⟩
    · exact absurd hlegal ((illegalWord_iff_not_legalWord cmd).mp hill)
    · rw [resultWord_status, statusOf, if_pos ⟨hprog.mpr hword, hext⟩]; rfl
    · rw [resultWord_status, statusOf, if_neg (by rwa [hprog])]; rfl
  · have hill : IllegalWord cmd := (illegalWord_iff_not_legalWord cmd).mpr hnot
    refine ⟨_, _, step_of_decode_error hn hi hd, rfl, fun _ => resultWord_status _ _, fun hword _ => ?_, fun hok => ?_⟩
    · exact absurd (hd.symm.trans ((decode_eq_prog_iff cmd).mpr hword)) nofun
    · exact absurd hill hok

end Sys2Proof.Machine

/-! SUPPORT. The laws of the gamma lookup and the levels of a ladder pass (spec/40_datapath.md R101, R103). -/

namespace Sys2Proof.Machine

@[simp] theorem gammaOf_zero (table : Fin 1024 →o Fin 1024) : gammaOf table 0 = 0 := if_pos rfl

theorem gammaOf_of_ne_zero (table : Fin 1024 →o Fin 1024) {x : Intensity} (h : x ≠ 0) :
    gammaOf table x = BitVec.ofFin (table x.toFin) := if_neg h

/-- A lookup is monotone whatever its table: forcing `G(0) = 0` only lowers the least entry (R101). -/
theorem gammaOf_mono (table : Fin 1024 →o Fin 1024) {x y : Intensity} (h : x.toNat ≤ y.toNat) :
    (gammaOf table x).toNat ≤ (gammaOf table y).toNat := by
  by_cases hx : x = 0
  · subst hx
    rw [gammaOf_zero]
    exact Nat.zero_le _
  · have hy : y ≠ 0 := by
      rintro rfl
      exact hx (BitVec.eq_of_toNat_eq (Nat.le_zero.mp h))
    rw [gammaOf_of_ne_zero table hx, gammaOf_of_ne_zero table hy]
    exact table.monotone h

/-- The table whose entries are the values of a monotone function on intensities. -/
def tableOf (g : Intensity → Intensity) (hg : ∀ x y : Intensity, x.toNat ≤ y.toNat → (g x).toNat ≤ (g y).toNat) :
    Fin 1024 →o Fin 1024 where
  toFun i := (g (BitVec.ofFin i)).toFin
  monotone' i j hij := hg (BitVec.ofFin i) (BitVec.ofFin j) hij

/-- A monotone function with `g 0 = 0` is the lookup in its own table (R101). -/
theorem gammaOf_tableOf {g : Intensity → Intensity}
    (hg : ∀ x y : Intensity, x.toNat ≤ y.toNat → (g x).toNat ≤ (g y).toNat) (h0 : g 0 = 0) (x : Intensity) :
    gammaOf (tableOf g hg) x = g x := by
  by_cases hx : x = 0
  · rw [hx, gammaOf_zero, h0]
  · exact gammaOf_of_ne_zero _ hx

/-- Settles O23: every lookup has the laws, and a function that has them is the lookup in its own table. -/
theorem gammaTableObeysExactlyItsLaws : Obligations.GammaTableObeysExactlyItsLaws :=
  ⟨fun _ _ h => gammaOf_mono Config.gammaTable h, gammaOf_zero Config.gammaTable,
    fun x => Nat.le_of_lt_succ (gammaLut x).isLt, fun g hg h0 => ⟨tableOf g hg, gammaOf_tableOf hg h0⟩⟩

/-- `full` as R103 writes it: the clamp applies exactly when the pass would light every unit. -/
theorem ladderFull_eq_ite (v : Intensity) (n : Nat) :
    ladderFull v n = if n ≤ v.toNat / 256 then n - 1 else v.toNat / 256 := by
  unfold ladderFull
  split <;> omega

section
variable {v : Intensity} {n i : Nat}

/-- Below `full` a unit is fully on (R103). -/
theorem ladderLevel_of_lt (h : i < ladderFull v n) : ladderLevel v n i = 255 := if_pos h

/-- The unit at `full` takes the remainder (R103). -/
@[simp] theorem ladderLevel_ladderFull (v : Intensity) (n : Nat) :
    ladderLevel v n (ladderFull v n) = ladderRem v := by
  rw [ladderLevel, if_neg (Nat.lt_irrefl _), if_pos rfl]

/-- Above `full` a unit is off (R103). -/
theorem ladderLevel_of_gt (h : ladderFull v n < i) : ladderLevel v n i = 0 := by
  rw [ladderLevel, if_neg h.not_gt, if_neg h.ne']

end

/-- Settles O25: `full` is a unit of the pass, and each level is the one on its side of `full`. -/
theorem ladderLevels : Obligations.LadderLevels := by
  intro v n hn
  refine ⟨ladder_length v n, fun full hfull => ?_⟩
  rw [← ladderFull_eq_ite] at hfull
  subst hfull
  have hlt : ladderFull v n < n := ladderFull_lt v hn
  refine ⟨fun i hi => ?_, ?_, fun i hi hin => ?_⟩
  · rw [ladder_getElem? v (hi.trans hlt), ladderLevel_of_lt hi]
  · rw [ladder_getElem? v hlt, ladderLevel_ladderFull, ladderRem]
  · rw [ladder_getElem? v hin, ladderLevel_of_gt hi]

end Sys2Proof.Machine

/-! SUPPORT. SETRGB followed at once by ALLOFF, and the color wheel: each channel follows one ramp, whose position moves
by at most 1 with the hue (spec/41_color_engine.md R135, R136). -/

namespace Sys2Proof.Machine

/-- SETRGB as one register write: the units of WRITE_RGB, their frame and the result OK (R130). -/
theorem exec_setrgb (r g b : BitVec 16) (s : State) :
    ∃ us, us = rgbUnits (gammaGate s.gammaEn (clamp10 r)) (gammaGate s.gammaEn (clamp10 g))
        (gammaGate s.gammaEn (clamp10 b)) s.nUnits
      ∧ exec (.setrgb r g b) s = .next
          { s with units := us, frames := s.frames ++ [us], results := s.results ++ [0] } :=
  ⟨_, rfl, by rw [← resultWord_ok_zero]; rfl⟩

/-- ALLOFF as one register write: the units off, their frame and the result OK (R132). -/
theorem exec_alloff (s : State) : exec .alloff s = .next
    { s with units := List.replicate s.nUnits Rgb8.off, frames := s.frames ++ [List.replicate s.nUnits Rgb8.off],
             results := s.results ++ [0] } := by
  rw [← resultWord_ok_zero]; rfl

/-- Settles O37: SETRGB keeps the number of units, so ALLOFF writes and emits as many as `s` has. -/
theorem setrgbThenAlloff : Obligations.SetrgbThenAlloff := by
  intro r g b s
  obtain ⟨us, hus, hset⟩ := exec_setrgb r g b s
  have hlen : us.length = s.units.length := by rw [hus, rgbUnits_length, State.nUnits]
  refine ⟨_, hset, rfl, ?_⟩
  rw [exec_alloff]
  simp only [State.nUnits, hlen, List.append_assoc, List.cons_append, List.nil_append, Rgb8.off]

/-- Where the red channel stands on its ramp: it falls over segment 0 and rises over segment 2 (R134). -/
def redPosition (hc : Nat) : Nat := (1023 - hc) + min (hc - 2046) 1023

/-- Where the green channel stands on its ramp: it rises over segment 0 and falls over segment 1 (R134). -/
def greenPosition (hc : Nat) : Nat := min hc (2046 - hc)

/-- Where the blue channel stands on its ramp: it rises over segment 1 and falls over segment 2 (R134). -/
def bluePosition (hc : Nat) : Nat := min (hc - 1023) (3069 - hc)

/-- A falling channel is a rising one read from the other end (R134). -/
theorem rampDown_eq_rampUp (pe vc : Nat) : rampDown pe vc = rampUp (1023 - pe) vc := rfl

@[simp] theorem rampUp_zero (vc : Nat) : rampUp 0 vc = 0 := by simp [rampUp]

/-- At the top of its ramp a channel shows the value itself (R135). -/
theorem rampUp_full (vc : Intensity) : rampUp 1023 vc.toNat = vc := by simp [rampUp]

/-- The segments put away: each channel is one ramp, read at the channel's position on it (R134). -/
theorem wheelRgb_eq_ramps (hc : Nat) (vc : Intensity) :
    wheelRgb hc vc = (rampUp (redPosition hc) vc.toNat, rampUp (greenPosition hc) vc.toNat,
      rampUp (bluePosition hc) vc.toNat) := by
  obtain hs | hs | hs : wheelSegment hc = 0 ∨ wheelSegment hc = 1 ∨ wheelSegment hc = 2 := by
    have := wheelSegment_le hc
    omega
  · have hlt : hc < 1023 := by unfold wheelSegment at hs; omega
    have hr : redPosition hc = 1023 - wheelPosition hc := by unfold redPosition wheelPosition; omega
    have hg : greenPosition hc = wheelPosition hc := by unfold greenPosition wheelPosition; omega
    have hb : bluePosition hc = 0 := by unfold bluePosition; omega
    simp only [wheelRgb, hs, hr, hg, hb, rampDown_eq_rampUp, rampUp_zero]
  · have hin : 1023 ≤ hc ∧ hc < 2046 := by unfold wheelSegment at hs; omega
    have hr : redPosition hc = 0 := by unfold redPosition; omega
    have hg : greenPosition hc = 1023 - wheelPosition hc := by unfold greenPosition wheelPosition; omega
    have hb : bluePosition hc = wheelPosition hc := by unfold bluePosition wheelPosition; omega
    simp only [wheelRgb, hs, hr, hg, hb, rampDown_eq_rampUp, rampUp_zero]
  · have hge : 2046 ≤ hc := by unfold wheelSegment at hs; omega
    have hr : redPosition hc = wheelPosition hc := by unfold redPosition wheelPosition; omega
    have hg : greenPosition hc = 0 := by unfold greenPosition; omega
    have hb : bluePosition hc = 1023 - wheelPosition hc := by unfold bluePosition wheelPosition; omega
    simp only [wheelRgb, hs, hr, hg, hb, rampDown_eq_rampUp, rampUp_zero]

/-- One position higher raises a channel by at most `⌈vc/1023⌉`, which is at most 1 (R135). -/
theorem rampUp_le_succ {p q : Nat} (vc : Intensity) (hp : p ≤ 1023) (hq : q ≤ 1023) (h : p ≤ q + 1) :
    (rampUp p vc.toNat).toNat ≤ (rampUp q vc.toNat).toNat + 1 := by
  have hv : vc.toNat ≤ 1023 := Nat.le_of_lt_succ vc.isLt
  have hstep : p * vc.toNat ≤ q * vc.toNat + 1023 := calc
    p * vc.toNat ≤ (q + 1) * vc.toNat := Nat.mul_le_mul_right _ h
    _ = q * vc.toNat + vc.toNat := Nat.succ_mul _ _
    _ ≤ q * vc.toNat + 1023 := Nat.add_le_add_left hv _
  rw [rampUp_toNat hp hv, rampUp_toNat hq hv, ← Nat.add_div_right _ (by decide : 0 < 1023)]
  exact Nat.div_le_div_right hstep

/-- Two positions on a ramp, at most 1 apart. -/
def Neighbours (p q : Nat) : Prop := (p ≤ 1023 ∧ q ≤ 1023) ∧ p ≤ q + 1 ∧ q ≤ p + 1

/-- A channel at two neighbouring positions differs by at most 1 (R135). -/
theorem Neighbours.rampUp_differ_le_one {p q : Nat} (h : Neighbours p q) (vc : Intensity) :
    (rampUp p vc.toNat).toNat ≤ (rampUp q vc.toNat).toNat + 1
      ∧ (rampUp q vc.toNat).toNat ≤ (rampUp p vc.toNat).toNat + 1 := by
  obtain ⟨⟨hp, hq⟩, hpq, hqp⟩ := h
  exact ⟨rampUp_le_succ vc hp hq hpq, rampUp_le_succ vc hq hp hqp⟩

theorem redPosition_neighbours (hc : Nat) : Neighbours (redPosition hc) (redPosition (hc + 1)) := by
  unfold Neighbours redPosition; omega

theorem greenPosition_neighbours (hc : Nat) : Neighbours (greenPosition hc) (greenPosition (hc + 1)) := by
  unfold Neighbours greenPosition; omega

theorem bluePosition_neighbours (hc : Nat) : Neighbours (bluePosition hc) (bluePosition (hc + 1)) := by
  unfold Neighbours bluePosition; omega

/-- From hue 3069 on the position is capped and the wheel stays at pure red (R135). -/
theorem wheelRgb_capped {hc : Nat} (h : 3069 ≤ hc) (vc : Intensity) : wheelRgb hc vc = (vc, 0, 0) := by
  have hr : redPosition hc = 1023 := by unfold redPosition; omega
  have hg : greenPosition hc = 0 := by unfold greenPosition; omega
  have hb : bluePosition hc = 0 := by unfold bluePosition; omega
  rw [wheelRgb_eq_ramps, hr, hg, hb, rampUp_full, rampUp_zero]

/-- Settles O35: the corners evaluate; between two hues each channel's position on its ramp moves by at most 1. -/
theorem wheelIsContinuous : Obligations.WheelIsContinuous := by
  refine ⟨by decide, by decide, by decide, by decide, by decide, by decide, by decide, fun hc vc _ => ?_,
    fun hc vc h _ => wheelRgb_capped h vc⟩
  simp only [wheelRgb_eq_ramps]
  exact ⟨(redPosition_neighbours hc).rampUp_differ_le_one vc, (greenPosition_neighbours hc).rampUp_differ_le_one vc,
    (bluePosition_neighbours hc).rampUp_differ_le_one vc⟩

end Sys2Proof.Machine

/-! SUPPORT. The elapsed time, and polls that leave the engine as it was: on a Disabled sweep, and before the interval has
elapsed (spec/42_sweep.md R176, R177, R180). -/

namespace Sys2Proof.Laws

/-- The decoder gives back a POLL and its offset: no bit above the offset is set (R71, R74). -/
theorem decode_encode_poll (off : BitVec 8) : decode (encode (.poll off)) = .ok (.poll off) := by
  have hop : (opcodeOf (encode (.poll off))).toNat = 8 := by rw [EncodesItsOpcode.poll off]; rfl
  have hoff : field (encode (.poll off)) 0 8 = off :=
    BitVec.eq_of_toNat_eq (by rw [field_toNat, encode_poll_toNat]; omega)
  rw [decode_op8 hop, hoff]
  obtain ⟨-, hok⟩ | ⟨hset, -⟩ := unlessReserved_cases (encode (.poll off)) 8 48 (.poll off)
  · exact hok
  · rw [encode_poll_toNat] at hset
    omega

end Sys2Proof.Laws

namespace Sys2Proof.Machine

open Sys2Proof.Laws

/-- `elapsed` in natural numbers: the difference modulo 2^32 (R176). -/
theorem elapsed_toNat (s : State) : (elapsed s).toNat = (s.now.toNat + 2 ^ 32 - s.swLast.toNat) % 2 ^ 32 := by
  rw [elapsed, BitVec.toNat_sub]
  omega

/-- A clock sample `g` ms after the stamp reads as `g` modulo 2^32, however often the counter wrapped (R176). -/
theorem elapsed_of_gap {s : State} {g : Nat} (h : s.now.toNat = (s.swLast.toNat + g) % 2 ^ 32) :
    (elapsed s).toNat = g % 2 ^ 32 := by
  rw [elapsed_toNat]
  omega

/-- Settles O41: the example is a gap of 272 ms across one wrap of the counter. -/
theorem elapsedWrapsModulo : Obligations.ElapsedWrapsModulo :=
  ⟨elapsed_toNat, fun _ _ h => elapsed_of_gap h,
    fun s hlast hnow => elapsed_of_gap (s := s) (g := 272) (by rw [hlast, hnow]; rfl)⟩

/-- The result word of a POLL on a Disabled engine (R80, R82). -/
theorem resultWord_idle : resultWord .ok (outcomePayload .idle) = 0 := by decide

/-- The result word of a POLL before its interval has elapsed (R80, R82). -/
theorem resultWord_waiting : resultWord .ok (outcomePayload .waiting) = 3 := by decide

section
variable {s t : State} {off : BitVec 8}

/-- A POLL of a Disabled sweep returns Idle and changes nothing else (R171, R177). -/
theorem execPoll_of_disabled (off : BitVec 8) (hdis : s.swEn = false) :
    execPoll off s = .next { s with results := s.results ++ [0] } := by
  obtain ⟨-, hp⟩ | ⟨hen, -⟩ | ⟨hen, -⟩ := execPoll_cases off s
  · rw [hp, State.answer, resultWord_idle]
  · exact absurd (hdis.symm.trans hen) nofun
  · exact absurd (hdis.symm.trans hen) nofun

/-- A tick answers Stepped or Finished, never Waiting (R82, R177). -/
theorem sweepTick_results_ne_waiting (off : BitVec 8) (s : State) : (sweepTick off s).results ≠ s.results ++ [3] := by
  obtain ⟨-, ht⟩ | ⟨-, ht⟩ := sweepTick_cases off s
  · rw [ht]; exact fun h => absurd (List.append_cancel_left h) (by decide)
  · rw [ht]; exact fun h => absurd (List.append_cancel_left h) (by decide)

/-- An Enabled POLL that answered Waiting changed nothing else: only the branch before the elapsed tick gives that
answer (R171, R177). -/
theorem execPoll_waiting_changes_nothing (hen : s.swEn = true) (h : execPoll off s = .next t)
    (hres : t.results = s.results ++ [3]) : t = { s with results := s.results ++ [3] } := by
  obtain ⟨hdis, -⟩ | ⟨-, -, hp⟩ | ⟨-, -, hp⟩ := execPoll_cases off s
  · exact absurd (hdis.symm.trans hen) nofun
  · cases hp.symm.trans h
    rw [State.answer, resultWord_waiting]
  · cases hp.symm.trans h
    exact absurd hres (sweepTick_results_ne_waiting off s)

/-- A step on a presented POLL executes it at its clock sample (R5). -/
theorem step_poll {now : Millis} {rest : List HostInput} (hn : s.nUnits ≠ 0)
    (hi : s.inputs = asInput (.poll off) now :: rest) :
    step s = execPoll off { s with inputs := rest, now := now } :=
  step_of_decode_ok hn hi (decode_encode_poll off)

/-- A step on a POLL presented to a Disabled engine takes it and answers Idle (R180). -/
theorem step_poll_of_disabled {now : Millis} {rest : List HostInput} (hn : s.nUnits ≠ 0) (hdis : s.swEn = false)
    (hi : s.inputs = asInput (.poll off) now :: rest) :
    step s = .next { s with inputs := rest, now := now, results := s.results ++ [0] } :=
  (step_poll hn hi).trans (execPoll_of_disabled off hdis)

/-- A run goes on from the state its first step answers. -/
theorem runSteps_succ_of_next (k : Nat) (h : step s = .next t) : runSteps (k + 1) s = runSteps k t := by
  simp only [runSteps, h]

end

/-- Polling a Disabled engine any number of times takes the polls, returns Idle for each, and leaves every register as it
was (R180). -/
theorem runSteps_polls_of_disabled (xs : List (BitVec 8 × Millis)) (rest : List HostInput) {s : State}
    (hn : s.nUnits ≠ 0) (hdis : s.swEn = false) (hi : s.inputs = polls xs ++ rest) :
    ∃ now, runSteps xs.length s = .next
      { s with inputs := rest, now := now, results := s.results ++ List.replicate xs.length 0 } := by
  induction xs generalizing s with
  | nil =>
    have hrest : s.inputs = rest := hi
    refine ⟨s.now, ?_⟩
    rw [← hrest, List.length_nil, List.replicate_zero, List.append_nil, runSteps]
  | cons x xs ih =>
    have hstep := step_poll_of_disabled (now := x.2) (rest := polls xs ++ rest) hn hdis hi
    obtain ⟨now, hrun⟩ :=
      ih (s := { s with inputs := polls xs ++ rest, now := x.2, results := s.results ++ [0] }) hn hdis rfl
    refine ⟨now, ?_⟩
    rw [List.length_cons, runSteps_succ_of_next _ hstep, hrun, List.append_assoc, List.replicate_succ,
      List.singleton_append]

/-- Settles O51: Disabled polls by induction on the polls, the waiting poll by its answer. -/
theorem idleAndWaitingPollsChangeNothing : Obligations.IdleAndWaitingPollsChangeNothing :=
  ⟨fun _ xs rest hn hdis hi => runSteps_polls_of_disabled xs rest hn hdis hi,
    fun _ _ _ hen h hres => execPoll_waiting_changes_nothing hen h hres⟩

end Sys2Proof.Machine

/-! SUPPORT. The two errors the engine reports: an illegal word, and PROG of a sweep without extent (spec/60_exceptions.md
R211, R212). -/

namespace Sys2Proof.Machine

open Sys2Proof.Laws

/-- `raise Illegal` as one register write: it appends the result word ERR_ILLEGAL and touches nothing else (R211). -/
theorem raiseIllegal_eq (s : State) : s.raiseIllegal = { s with results := s.results ++ [0x0200000000000000] } := by
  rw [State.raiseIllegal, State.answer, resultWord_errIllegal]

/-- Settles O7: the decoder rejects an illegal word, and a step on a rejected word is `raise Illegal`. -/
theorem illegalWordChangesNothing : Obligations.IllegalWordChangesNothing := by
  intro s cmd now rest hn hi hill
  obtain ⟨e, hd⟩ := decode_error_of_illegalWord hill
  rw [step_of_decode_error hn hi hd, raiseIllegal_eq]

/-- PROG of a sweep without extent reports ERR_DIV0 with the quiet NaN and changes nothing else (R212). -/
theorem exec_prog_of_no_extent {s : State} (hext : s.swStop = s.swStart) :
    exec .prog s = .next { s with results := s.results ++ [0x010000007FC00000] } := by
  change execProg s = _
  obtain ⟨-, hp⟩ | ⟨hne, -⟩ := execProg_cases s
  · rw [hp, State.answer, resultWord_errDiv0]
  · exact absurd hext hne

/-- Only PROG without extent has the status ERR_DIV0 (R212). -/
theorem statusOf_eq_errDiv0_iff (i : Instr) (s : State) :
    statusOf i s = .errDiv0 ↔ i = .prog ∧ s.swStop = s.swStart := by
  unfold statusOf
  split
  · exact iff_of_true rfl ‹_›
  · exact iff_of_false nofun ‹_›

/-- The code 0x01 is ERR_DIV0's alone (R81). -/
theorem statusCode_eq_one_iff (st : Status) : (statusCode st).toNat = 0x01 ↔ st = .errDiv0 := by
  cases st <;> decide

/-- The one result a command appends has the command's status in its top byte (R80, R81). -/
theorem exec_result_status {i : Instr} {s t : State} {res : Word} (h : exec i s = .next t)
    (hres : t.results = s.results ++ [res]) : bits res 63 56 = (statusCode (statusOf i s)).toNat := by
  obtain ⟨u, p, hu, hword⟩ := exec_status i s
  cases hu.symm.trans h
  have hsame : [res] = [resultWord (statusOf i s) p] := List.append_cancel_left (hres.symm.trans hword)
  rw [List.singleton_inj.mp hsame, resultWord_status]

/-- Settles O46: a result with the status 0x01 comes from a command whose status is ERR_DIV0, which is PROG without
extent. -/
theorem progWithoutExtent : Obligations.ProgWithoutExtent := by
  refine ⟨fun s hext => exec_prog_of_no_extent hext, fun i s t res h hres hcode => ?_⟩
  rw [exec_result_status h hres, statusCode_eq_one_iff] at hcode
  exact (statusOf_eq_errDiv0_iff i s).mp hcode

end Sys2Proof.Machine

/-! SUPPORT. The reset input, and the sweeps that never end: polls that each keep a sweep as it stands (spec/
70_reset_and_hazards.md R240, R246). -/

namespace Sys2Proof.Machine

/-- A step on the reset input takes it and resets, with no command executed (R240). -/
theorem step_of_reset {s : State} {rest : List HostInput} (hn : s.nUnits ≠ 0) (hi : s.inputs = .reset :: rest) :
    step s = .next (State.takeReset { s with inputs := rest }) := by
  simp only [step, fetch, hn, hi, if_false]

/-- Every unit is off in the reset state, whatever the fixture (R240). -/
theorem eq_off_of_mem_resetOf_units {n : Nat} {u : Rgb8} (h : u ∈ (State.resetOf n).units) : u = ⟨0, 0, 0⟩ :=
  List.eq_of_mem_replicate h

/-- Settles O8: the reset input is `State.takeReset`, whose registers are the reset values field by field. -/
theorem resetLeavesEveryRegisterZero : Obligations.ResetLeavesEveryRegisterZero := by
  constructor
  · intro s rest hn hi
    exact ⟨_, step_of_reset hn hi, rfl, rfl, rfl, rfl, rfl, rfl, rfl, rfl, rfl, rfl, rfl, rfl, rfl, rfl⟩
  · exact ⟨rfl, rfl, rfl, rfl, rfl, rfl, rfl, rfl, rfl, rfl, fun _ hu => eq_off_of_mem_resetOf_units hu⟩

/-- From `s` to `t` the engine took a poll, leaving the inputs `rest`, and returned the result word `w`. -/
structure TakesPoll (s t : State) (rest : List HostInput) (w : Word) : Prop where
  steps : step s = .next t
  inputs : t.inputs = rest
  results : t.results = s.results ++ [w]

/-- The induction over a list of polls: when every poll keeps `Keeps`, a predicate of the state and of the polls still
ahead, and returns a word of `W`, the whole list does. -/
theorem runSteps_polls_of_kept {Keeps : State → List (BitVec 8 × Millis) → Prop} {W : Word → Prop}
    (hstep : ∀ s off now xs, Keeps s ((off, now) :: xs) → s.inputs = asInput (.poll off) now :: polls xs →
      ∃ t w, TakesPoll s t (polls xs) w ∧ Keeps t xs ∧ W w)
    (xs : List (BitVec 8 × Millis)) {s : State} (hs : Keeps s xs) (hi : s.inputs = polls xs) :
    ∃ t rs, runSteps xs.length s = .next t ∧ t.results = s.results ++ rs ∧ Keeps t [] ∧ rs.length = xs.length
      ∧ ∀ w ∈ rs, W w := by
  induction xs generalizing s with
  | nil => exact ⟨s, [], rfl, (List.append_nil _).symm, hs, rfl, nofun⟩
  | cons x xs ih =>
    obtain ⟨off, now⟩ := x
    obtain ⟨u, w, hpoll, hu, hw⟩ := hstep s off now xs hs hi
    obtain ⟨t, rs, hrun, hres, ht, hlen, hrs⟩ := ih hu hpoll.inputs
    refine ⟨t, w :: rs, ?_, ?_, ht, congrArg Nat.succ hlen, List.forall_mem_cons.mpr ⟨hw, hrs⟩⟩
    · exact (runSteps_succ_of_next _ hpoll.steps).trans hrun
    · rw [hres, hpoll.results, List.append_assoc, List.singleton_append]

section
variable {s : State} {off : BitVec 8} {now : Millis} {rest : List HostInput}

/-- A POLL of an Enabled sweep before more than the interval has elapsed returns Waiting and changes nothing else
(R171, R177). -/
theorem execPoll_of_not_elapsed (off : BitVec 8) (hen : s.swEn = true)
    (hwait : (elapsed s).toNat ≤ s.swInterval.toNat) :
    execPoll off s = .next { s with results := s.results ++ [3] } := by
  obtain ⟨hdis, -⟩ | ⟨-, -, hp⟩ | ⟨-, hel, -⟩ := execPoll_cases off s
  · exact absurd (hdis.symm.trans hen) nofun
  · rw [hp, State.answer, resultWord_waiting]
  · exact absurd hel (Nat.not_lt_of_le hwait)

/-- A POLL of an elapsed tick is the tick (R177). -/
theorem execPoll_of_tickElapsed (off : BitVec 8) (htick : TickElapsed s) :
    execPoll off s = .next (sweepTick off s) := by
  obtain ⟨hen, hel⟩ := htick
  obtain ⟨hdis, -⟩ | ⟨-, hwait, -⟩ | ⟨-, -, hp⟩ := execPoll_cases off s
  · exact absurd (hdis.symm.trans hen) nofun
  · exact absurd hel (Nat.not_lt_of_le hwait)
  · exact hp

/-- A step on a POLL presented too early answers Waiting, with every register as it was (R180). -/
theorem takesPoll_of_not_elapsed (hn : s.nUnits ≠ 0) (hen : s.swEn = true)
    (hwait : (now - s.swLast).toNat ≤ s.swInterval.toNat) (hi : s.inputs = asInput (.poll off) now :: rest) :
    TakesPoll s { s with inputs := rest, now := now, results := s.results ++ [3] } rest 3 :=
  ⟨(step_poll hn hi).trans (execPoll_of_not_elapsed off hen hwait), rfl, rfl⟩

end

/-! ### Step 0: the sweep stands at its hue -/

/-- The result word of a POLL that steps (R80, R82). -/
theorem resultWord_stepped : resultWord .ok (outcomePayload .stepped) = 1 := by decide

/-- An Enabled sweep of step 0 that stands at the hue `c`, not past its stop (R246). -/
structure StandsAt (c : BitVec 8) (s : State) : Prop where
  hasUnit : s.nUnits ≠ 0
  enabled : s.swEn = true
  stepZero : s.swStep = 0
  cur : s.swCur = c
  curLeStop : c.toNat ≤ s.swStop.toNat

/-- Under the invariants of R37 an Enabled sweep of step 0 with a range that is not empty stands where it is. -/
theorem SweepInv.standsAt {s : State} (hs : SweepInv s) (hen : s.swEn = true) (hzero : s.swStep = 0)
    (hrange : s.swStart.toNat ≤ s.swStop.toNat) : StandsAt s.swCur s :=
  ⟨Nat.one_le_iff_ne_zero.mp hs.hasUnit, hen, hzero, rfl, hs.curLeStop hrange⟩

section
variable {c off : BitVec 8} {s : State} {now : Millis} {rest : List HostInput}

/-- Taking an input and returning a result leave a standing sweep standing. -/
theorem StandsAt.of_observed (hs : StandsAt c s) (rest : List HostInput) (now : Millis) (results : List Word) :
    StandsAt c { s with inputs := rest, now := now, results := results } :=
  ⟨hs.hasUnit, hs.enabled, hs.stepZero, hs.cur, hs.curLeStop⟩

/-- With step 0 the next hue is the current one (R177). -/
theorem StandsAt.nextHue_eq (hs : StandsAt c s) : nextHue s = c.toNat := by
  simp [nextHue, hs.stepZero, hs.cur]

/-- The tick of a standing sweep steps: it stamps and applies the current hue with the offset again (R177). -/
theorem StandsAt.sweepTick_eq (hs : StandsAt c s) (off : BitVec 8) :
    sweepTick off s = State.answer { s.stamp.writeHv (c + off) s.intensity with swCur := c } .ok
      (outcomePayload .stepped) := by
  obtain ⟨-, ht⟩ | ⟨hpast, -⟩ := sweepTick_cases off s
  · simp only [ht, hs.nextHue_eq, BitVec.ofNat_add, BitVec.ofNat_toNat, BitVec.setWidth_eq]
  · rw [hs.nextHue_eq] at hpast
    exact absurd hs.curLeStop (Nat.not_le_of_lt hpast)

/-- A step on a POLL at an elapsed tick of a standing sweep answers Stepped, stamps, and leaves it standing (R246). -/
theorem StandsAt.takesPoll_of_elapsed (hs : StandsAt c s) (hel : s.swInterval.toNat < (now - s.swLast).toNat)
    (hi : s.inputs = asInput (.poll off) now :: rest) :
    ∃ t, TakesPoll s t rest 1 ∧ StandsAt c t ∧ t.swInterval = s.swInterval ∧ t.swLast = now := by
  have htaken : StandsAt c { s with inputs := rest, now := now } := hs.of_observed rest now s.results
  have hexec := execPoll_of_tickElapsed (s := { s with inputs := rest, now := now }) off ⟨hs.enabled, hel⟩
  rw [htaken.sweepTick_eq off] at hexec
  refine ⟨_, ⟨(step_poll hs.hasUnit hi).trans hexec, rfl, ?_⟩, ⟨?_, ?_, ?_, ?_, ?_⟩, rfl, rfl⟩
  · rw [State.answer_results, resultWord_stepped]; rfl
  · rw [State.answer_nUnits]
    exact (State.writeHv_nUnits _ _ _).trans_ne hs.hasUnit
  · exact htaken.enabled
  · exact htaken.stepZero
  · rfl
  · exact htaken.curLeStop

/-- A step on any POLL of a standing sweep answers Stepped or Waiting and leaves it standing (R246). -/
theorem StandsAt.takesPoll (hs : StandsAt c s) (hi : s.inputs = asInput (.poll off) now :: rest) :
    ∃ t w, TakesPoll s t rest w ∧ StandsAt c t ∧ (w = 1 ∨ w = 3) := by
  by_cases hwait : (now - s.swLast).toNat ≤ s.swInterval.toNat
  · have hkept := takesPoll_of_not_elapsed hs.hasUnit hs.enabled hwait hi
    exact ⟨_, 3, hkept, hs.of_observed rest now _, .inr rfl⟩
  · obtain ⟨t, hpoll, ht, -, -⟩ := hs.takesPoll_of_elapsed (Nat.lt_of_not_le hwait) hi
    exact ⟨t, 1, hpoll, ht, .inl rfl⟩

/-- Polled at any times, a standing sweep returns Stepped or Waiting each time and still stands (R246). -/
theorem StandsAt.runSteps_polls (hs : StandsAt c s) (xs : List (BitVec 8 × Millis)) (hi : s.inputs = polls xs) :
    ∃ t rs, runSteps xs.length s = .next t ∧ t.results = s.results ++ rs ∧ StandsAt c t ∧ ∀ w ∈ rs, w = 1 ∨ w = 3 := by
  obtain ⟨t, rs, hrun, hres, ht, -, hrs⟩ := runSteps_polls_of_kept (Keeps := fun s _ => StandsAt c s)
    (fun _ _ _ _ hs hi => hs.takesPoll hi) xs hs hi
  exact ⟨t, rs, hrun, hres, ht, hrs⟩

/-- The sweep stands, and each poll ahead comes at an elapsed tick. Only a tick restamps, so the polls stay in time. -/
def StandsTicking (c : BitVec 8) (s : State) (xs : List (BitVec 8 × Millis)) : Prop :=
  StandsAt c s ∧ Ticking s.swInterval s.swLast (xs.map Prod.snd)

/-- One poll of a standing sweep polled at elapsed ticks: it steps, and the next poll is an elapsed tick again. -/
theorem StandsTicking.takesPoll {xs : List (BitVec 8 × Millis)} (hs : StandsTicking c s ((off, now) :: xs))
    (hi : s.inputs = asInput (.poll off) now :: rest) : ∃ t w, TakesPoll s t rest w ∧ StandsTicking c t xs ∧ w = 1 := by
  obtain ⟨hstands, hel, hlater⟩ := hs
  obtain ⟨t, hpoll, ht, hivl, hlast⟩ := hstands.takesPoll_of_elapsed hel hi
  exact ⟨t, 1, hpoll, ⟨ht, by rw [hivl, hlast]; exact hlater⟩, rfl⟩

/-- Polled at elapsed ticks, a standing sweep returns Stepped every time and still stands (R246). -/
theorem StandsTicking.runSteps_polls (xs : List (BitVec 8 × Millis)) (hs : StandsTicking c s xs)
    (hi : s.inputs = polls xs) :
    ∃ t, runSteps xs.length s = .next t ∧ t.results = s.results ++ List.replicate xs.length 1 ∧ StandsAt c t := by
  obtain ⟨t, rs, hrun, hres, ⟨ht, -⟩, hlen, hrs⟩ := runSteps_polls_of_kept (Keeps := StandsTicking c) (W := (· = 1))
    (fun _ _ _ _ hs hi => hs.takesPoll hi) xs hs hi
  exact ⟨t, hrun, by rw [hres, List.eq_replicate_iff.mpr ⟨hlen, hrs⟩], ht⟩

end

/-! ### The longest interval: the sweep waits -/

/-- An Enabled sweep whose interval is the greatest a clock sample can show (R26, R246). -/
structure WaitsForever (s : State) : Prop where
  hasUnit : s.nUnits ≠ 0
  enabled : s.swEn = true
  longest : s.swInterval.toNat = 2 ^ 32 - 1

/-- No elapsed time is more than the longest interval, so a step on any POLL answers Waiting (R246). -/
theorem WaitsForever.takesPoll {s : State} {off : BitVec 8} {now : Millis} {rest : List HostInput}
    (hs : WaitsForever s) (hi : s.inputs = asInput (.poll off) now :: rest) :
    ∃ t w, TakesPoll s t rest w ∧ WaitsForever t ∧ w = 3 := by
  have hwait : (now - s.swLast).toNat ≤ s.swInterval.toNat := by
    rw [hs.longest]
    exact Nat.le_pred_of_lt (now - s.swLast).isLt
  exact ⟨_, 3, takesPoll_of_not_elapsed hs.hasUnit hs.enabled hwait hi, ⟨hs.hasUnit, hs.enabled, hs.longest⟩, rfl⟩

/-- Polled at any times, a sweep of the longest interval returns Waiting each time and waits on (R246). -/
theorem WaitsForever.runSteps_polls {s : State} (hs : WaitsForever s) (xs : List (BitVec 8 × Millis))
    (hi : s.inputs = polls xs) :
    ∃ t, runSteps xs.length s = .next t ∧ WaitsForever t ∧ t.results = s.results ++ List.replicate xs.length 3 := by
  obtain ⟨t, rs, hrun, hres, ht, hlen, hrs⟩ := runSteps_polls_of_kept (Keeps := fun s _ => WaitsForever s)
    (W := (· = 3)) (fun _ _ _ _ hs hi => hs.takesPoll hi) xs hs hi
  exact ⟨t, hrun, ht, by rw [hres, List.eq_replicate_iff.mpr ⟨hlen, hrs⟩]⟩

/-- Settles O54: a sweep of step 0 stands at its hue, one of the longest interval waits, and every poll keeps it so. -/
theorem sweepsThatNeverEnd : Obligations.SweepsThatNeverEnd := by
  constructor
  · intro s xs hinv hen hzero hrange hi
    have hs := hinv.standsAt hen hzero hrange
    by_cases hticks : Ticking s.swInterval s.swLast (xs.map Prod.snd)
    · obtain ⟨t, hrun, hres, ht⟩ := StandsTicking.runSteps_polls xs ⟨hs, hticks⟩ hi
      exact ⟨t, _, hrun, hres, ht.enabled, ht.cur, fun w hw => .inl (List.eq_of_mem_replicate hw), fun _ => rfl⟩
    · obtain ⟨t, rs, hrun, hres, ht, hrs⟩ := hs.runSteps_polls xs hi
      exact ⟨t, rs, hrun, hres, ht.enabled, ht.cur, hrs, fun h => absurd h hticks⟩
  · intro s xs hn hen hlongest hi
    obtain ⟨t, hrun, ht, hres⟩ := WaitsForever.runSteps_polls ⟨hn, hen, hlongest⟩ xs hi
    exact ⟨t, hrun, ht.enabled, hres⟩

end Sys2Proof.Machine

/-! SUPPORT. The encoder and the decoder are inverse to each other, and the assembler refuses exactly the operands wider
than their fields (spec/30_encoding.md R71 to R74, R84, R85). -/

namespace Sys2Proof

/-- The operands of a command fit their fields, which have the operands' widths (R71, R84). -/
theorem Instr.wellFormed_all (i : Instr) : i.WellFormed := by
  cases i with
  | setrgb r g b => exact Laws.FitsItsFields.setrgb r g b
  | sethv hue val => exact Laws.FitsItsFields.sethv hue val
  | alloff => exact Laws.FitsItsFields.alloff
  | setgamma en => exact Laws.FitsItsFields.setgamma en
  | cfgswp start stop step ivl => exact Laws.FitsItsFields.cfgswp start stop step ivl
  | enswp en => exact Laws.FitsItsFields.enswp en
  | rstswp => exact Laws.FitsItsFields.rstswp
  | poll off => exact Laws.FitsItsFields.poll off
  | prog => exact Laws.FitsItsFields.prog
  | hv2rgb h v => exact Laws.FitsItsFields.hv2rgb h v

end Sys2Proof

namespace Sys2Proof.Laws

/-! ## Decoding what was encoded -/

section
variable {cmd : Word}

/-- A field whose bits hold `x` reads `x` (R12). -/
theorem field_eq {lo len : Nat} {x : BitVec len} (h : cmd.toNat / 2 ^ lo % 2 ^ len = x.toNat) : field cmd lo len = x :=
  BitVec.eq_of_toNat_eq ((field_toNat cmd lo len).trans h)

/-- The lowest bit holds the flag that stands there. -/
theorem bit0_eq {en : Bool} (h : cmd.toNat % 2 = en.toNat) : cmd.getLsbD 0 = en := by
  rw [← Bool.ofNat_toNat (cmd.getLsbD 0), bit0_toNat, h, Bool.ofNat_toNat]

/-- With its reserved bits zero a word is not rejected (R74). -/
theorem unlessReserved_of_zero {lo len : Nat} (h : cmd.toNat / 2 ^ lo % 2 ^ len = 0) (i : Instr) :
    unlessReserved cmd lo len i = .ok i := by
  obtain ⟨-, hok⟩ | ⟨hset, -⟩ := unlessReserved_cases cmd lo len i
  · exact hok
  · exact absurd h hset

end

/-- Decoding the word of a command gives the command back: its opcode selects the row, each field lies on the bits its
operand was written to, and every reserved bit was written 0 (R71 to R74). -/
theorem decode_encode (i : Instr) : decode (encode i) = .ok i := by
  cases i with
  | setrgb r g b =>
    have hword := encode_setrgb_toNat r g b
    rw [decode_op1 (congrArg BitVec.toNat (EncodesItsOpcode.setrgb r g b)), field_eq (x := r) (by omega),
      field_eq (x := g) (by omega), field_eq (x := b) (by omega)]
    exact unlessReserved_of_zero (by omega) _
  | sethv hue val =>
    have hword := encode_sethv_toNat hue val
    rw [decode_op2 (congrArg BitVec.toNat (EncodesItsOpcode.sethv hue val)), field_eq (x := hue) (by omega),
      field_eq (x := val) (by omega)]
    exact unlessReserved_of_zero (by omega) _
  | alloff => decide
  | setgamma en =>
    have hword := encode_setgamma_toNat en
    have hen := en.toNat_lt
    rw [decode_op4 (congrArg BitVec.toNat (EncodesItsOpcode.setgamma en)), bit0_eq (en := en) (by omega)]
    exact unlessReserved_of_zero (by omega) _
  | cfgswp start stop step ivl =>
    have hword := encode_cfgswp_toNat start stop step ivl
    rw [decode_op5 (congrArg BitVec.toNat (EncodesItsOpcode.cfgswp start stop step ivl)), field_eq (x := start) (by omega),
      field_eq (x := stop) (by omega), field_eq (x := step) (by omega), field_eq (x := ivl) (by omega)]
  | enswp en =>
    have hword := encode_enswp_toNat en
    have hen := en.toNat_lt
    rw [decode_op6 (congrArg BitVec.toNat (EncodesItsOpcode.enswp en)), bit0_eq (en := en) (by omega)]
    exact unlessReserved_of_zero (by omega) _
  | rstswp => decide
  | poll off => exact decode_encode_poll off
  | prog => decide
  | hv2rgb h v =>
    have hword := encode_hv2rgb_toNat h v
    rw [decode_op10 (congrArg BitVec.toNat (EncodesItsOpcode.hv2rgb h v)), field_eq (x := h) (by omega),
      field_eq (x := v) (by omega)]
    exact unlessReserved_of_zero (by omega) _

/-- Settles O1: every command is well formed, so the round trip needs no hypothesis. -/
theorem decodeInvertsEncode : Obligations.DecodeInvertsEncode := fun i _ => decode_encode i

/-! ## Encoding what was decoded -/

/-- What a decoded word satisfies: it is legal, and the command's operands are its fields (R74). -/
theorem legal_and_readsFrom_of_decode {cmd : Word} {i : Instr} (h : decode cmd = .ok i) :
    LegalWord cmd ∧ ReadsFrom cmd i := by
  obtain ⟨hlegal, j, hj, hread⟩ | ⟨-, e, he⟩ := decode_byRule cmd
  · cases hj.symm.trans h
    exact ⟨hlegal, hread⟩
  · cases he.symm.trans h

/-- A word that is an assigned opcode above its operand bits, which are zero from `lowestReserved` up, is determined by
the opcode and the bits below. -/
theorem LegalWord.toNat_eq {cmd : Word} (h : LegalWord cmd) {op : Nat} (hop : bits cmd 63 56 = op) :
    cmd.toNat = op * 2 ^ 56 + cmd.toNat % 2 ^ lowestReserved op := by
  obtain ⟨-, hreserved⟩ := h
  have habove := (bits_from_eq_iff cmd op (lowestReserved_le op)).mpr ⟨hop, hop ▸ hreserved⟩
  rw [← habove]
  exact (Nat.div_add_mod' _ _).symm

/-- The fields of a legal word and its opcode are the whole word, so the command that reads them has that word (R71). -/
theorem LegalWord.encode_eq {cmd : Word} (h : LegalWord cmd) {i : Instr} (hread : ReadsFrom cmd i) : encode i = cmd := by
  apply BitVec.eq_of_toNat_eq
  cases i with
  | setrgb r g b =>
    obtain ⟨hop, hr, hg, hb⟩ := hread
    have hword : cmd.toNat = 1 * 2 ^ 56 + cmd.toNat % 2 ^ 48 := h.toNat_eq hop
    simp only [bits] at hr hg hb
    rw [encode_setrgb_toNat]; omega
  | sethv hue val =>
    obtain ⟨hop, hhue, hval⟩ := hread
    have hword : cmd.toNat = 2 * 2 ^ 56 + cmd.toNat % 2 ^ 24 := h.toNat_eq hop
    simp only [bits] at hhue hval
    rw [encode_sethv_toNat]; omega
  | alloff =>
    have hword : cmd.toNat = 3 * 2 ^ 56 + cmd.toNat % 2 ^ 0 := h.toNat_eq hread
    rw [encode_alloff_toNat]; omega
  | setgamma en =>
    obtain ⟨hop, hen⟩ := hread
    have hword : cmd.toNat = 4 * 2 ^ 56 + cmd.toNat % 2 ^ 1 := h.toNat_eq hop
    simp only [bits] at hen
    rw [encode_setgamma_toNat]; omega
  | cfgswp start stop step ivl =>
    obtain ⟨hop, hstart, hstop, hstep, hivl⟩ := hread
    have hword : cmd.toNat = 5 * 2 ^ 56 + cmd.toNat % 2 ^ 56 := h.toNat_eq hop
    simp only [bits] at hstart hstop hstep hivl
    rw [encode_cfgswp_toNat]; omega
  | enswp en =>
    obtain ⟨hop, hen⟩ := hread
    have hword : cmd.toNat = 6 * 2 ^ 56 + cmd.toNat % 2 ^ 1 := h.toNat_eq hop
    simp only [bits] at hen
    rw [encode_enswp_toNat]; omega
  | rstswp =>
    have hword : cmd.toNat = 7 * 2 ^ 56 + cmd.toNat % 2 ^ 0 := h.toNat_eq hread
    rw [encode_rstswp_toNat]; omega
  | poll off =>
    obtain ⟨hop, hoff⟩ := hread
    have hword : cmd.toNat = 8 * 2 ^ 56 + cmd.toNat % 2 ^ 8 := h.toNat_eq hop
    simp only [bits] at hoff
    rw [encode_poll_toNat]; omega
  | prog =>
    have hword : cmd.toNat = 9 * 2 ^ 56 + cmd.toNat % 2 ^ 0 := h.toNat_eq hread
    rw [encode_prog_toNat]; omega
  | hv2rgb hue val =>
    obtain ⟨hop, hhue, hval⟩ := hread
    have hword : cmd.toNat = 10 * 2 ^ 56 + cmd.toNat % 2 ^ 32 := h.toNat_eq hop
    simp only [bits] at hhue hval
    rw [encode_hv2rgb_toNat]; omega

/-- Settles O2: a word that decodes is legal and holds the command's operands, which leaves no bit open. -/
theorem encodeInvertsDecode : Obligations.EncodeInvertsDecode := fun _ _ hd =>
  let ⟨hlegal, hread⟩ := legal_and_readsFrom_of_decode hd
  hlegal.encode_eq hread

/-- Settles O4: each word is the encoding of its command. -/
theorem wordsOfTheSpecDecode : Obligations.WordsOfTheSpecDecode :=
  ⟨decode_encode (.setrgb 1023 300 0), decode_encode (.sethv 85 600), decode_encode .alloff,
    decode_encode (.setgamma true), decode_encode (.cfgswp 0 10 2 100), decode_encode (.enswp true),
    decode_encode .rstswp, decode_encode (.poll 128), decode_encode .prog, decode_encode (.hv2rgb 1022 1023)⟩

/-! ## The assembler -/

/-- The assembler refuses a line exactly when the check of R84 fails. -/
theorem assemble_eq_none_iff (line : Written) : assemble line = none ↔ ¬ line.fits = true := by
  unfold assemble
  split <;> simp_all

/-- The assembler reads back the written form of every command (R84). -/
theorem assemble_written (i : Instr) : assemble i.written = some i := by
  unfold assemble
  rw [if_pos (Instr.wellFormed_all i)]
  cases i with
  | setgamma en => cases en <;> rfl
  | enswp en => cases en <;> rfl
  | _ => simp [Instr.written]

/-- Settles O5: the written forms read back; each refusal is the check of R84 on that line's operands; the
pseudo-commands evaluate. -/
theorem assemblerRefusesExactlyMisfits : Obligations.AssemblerRefusesExactlyMisfits := by
  refine ⟨assemble_written, ?_, ?_, ?_, ?_, ?_, ?_, ?_, rfl, rfl, rfl, rfl, rfl, rfl, rfl, rfl⟩
  all_goals
    intros
    simp [assemble_eq_none_iff, Written.fits, and_assoc]

end Sys2Proof.Laws

/-! SUPPORT. Each command as one register write: the next state written out as an update of the state before
(spec/41_color_engine.md R130 to R134, spec/42_sweep.md R172 to R177). -/

namespace Sys2Proof.Machine

/-! ## ColorEngine commands -/

/-- Settles O24: the clamped value fits its 10 bits, and the gate is a choice between the lookup and its argument. -/
theorem clampsAndGammaGate : Obligations.ClampsAndGammaGate := by
  refine ⟨fun x => ?_, fun _ => rfl, fun _ => ⟨rfl, rfl⟩⟩
  have hle : min x.toNat 1023 ≤ 1023 := Nat.min_le_right _ _
  rw [clamp10, BitVec.toNat_ofNat]
  exact Nat.mod_eq_of_lt (Nat.lt_succ_of_le hle)

/-- WRITE_RGB's units are three ladder passes (R106). -/
theorem rgbUnits_ladderedRgb (r g b : Intensity) (n : Nat) : LadderedRgb (rgbUnits r g b n) n r g b := by
  refine ⟨rgbUnits_length r g b n, fun i hi => ?_⟩
  simp only [rgbUnits_getElem? r g b hi, ladder_getElem? _ hi, Option.getD_some]

/-- WRITE_HV's units are a dimmer at its hue (R105, R107). -/
theorem hvUnits_ladderedAtHue (h : Level) (vv : Intensity) (n : Nat) : LadderedAtHue (hvUnits h vv n) n h vv :=
  ⟨hvUnits_length h vv n, fun _ hi => hvUnits_getElem? h vv hi⟩

/-- Settles O30. -/
theorem setrgbWritesThreeLadders : Obligations.SetrgbWritesThreeLadders := by
  intro r g b s
  obtain ⟨us, rfl, hexec⟩ := exec_setrgb r g b s
  exact ⟨_, hexec, rgbUnits_ladderedRgb _ _ _ _⟩

/-- SETHV as one register write: hue and linear value, the dimmer's units, their frame and the result OK (R131). -/
theorem exec_sethv (hue : BitVec 8) (val : BitVec 16) (s : State) :
    ∃ us, us = hvUnits hue (gammaGate s.gammaEn (clamp10 val)) s.nUnits
      ∧ exec (.sethv hue val) s = .next
          { s with hue := hue, intensity := clamp10 val, units := us, frames := s.frames ++ [us],
                   results := s.results ++ [0] } :=
  ⟨_, rfl, by rw [← resultWord_ok_zero]; rfl⟩

/-- Settles O31. -/
theorem sethvWritesADimmer : Obligations.SethvWritesADimmer := by
  intro hue val s
  obtain ⟨us, rfl, hexec⟩ := exec_sethv hue val s
  exact ⟨_, hexec, hvUnits_ladderedAtHue _ _ _⟩

/-- Settles O32. -/
theorem alloffDarkensEveryUnit : Obligations.AlloffDarkensEveryUnit := fun s =>
  ⟨_, exec_alloff s, List.length_replicate, fun _ hu => List.eq_of_mem_replicate hu⟩

/-- SETGAMMA as one register write (R133). Settles O33. -/
theorem setgammaWritesOnlyGammaMode : Obligations.SetgammaWritesOnlyGammaMode := by
  intro en s
  rw [← resultWord_ok_zero]; rfl

/-! ## SweepController commands -/

/-- CFGSWP as one register write (R172). Settles O38. -/
theorem cfgswpConfiguresTheSweep : Obligations.CfgswpConfiguresTheSweep := by
  intro start stop step ivl s
  rw [← resultWord_ok_zero]; rfl

/-- ENSWP as one register write, with a stamp only when it enables (R173). Settles O39. -/
theorem enswpEnablesOrDisables : Obligations.EnswpEnablesOrDisables := by
  intro s
  rw [← resultWord_ok_zero]
  exact ⟨rfl, rfl⟩

/-- RSTSWP as one register write (R174). Settles O40. -/
theorem rstswpRestarts : Obligations.RstswpRestarts := by
  intro s
  rw [← resultWord_ok_zero]; rfl

/-- Settles O42. -/
theorem pollIdlesOrWaits : Obligations.PollIdlesOrWaits :=
  ⟨fun off _ hdis => execPoll_of_disabled off hdis, fun off _ hen hwait => execPoll_of_not_elapsed off hen hwait⟩

/-- A POLL of an elapsed tick whose next hue is not past the stop, as one register write: stamped, at the next hue, the
dimmer's units at that hue plus the offset, their frame and the result Stepped (R107, R177). -/
theorem exec_poll_steps (off : BitVec 8) {s : State} (htick : TickElapsed s) (hnext : nextHue s ≤ s.swStop.toNat) :
    ∃ us, us = hvUnits (s.swCur + s.swStep + off) (gammaGate s.gammaEn s.intensity) s.nUnits
      ∧ exec (.poll off) s = .next
          { s with swLast := s.now, swCur := s.swCur + s.swStep, hue := s.swCur + s.swStep + off, units := us,
                   frames := s.frames ++ [us], results := s.results ++ [1] } := by
  have hcur : BitVec.ofNat 8 (nextHue s) = s.swCur + s.swStep := by
    simp only [nextHue, BitVec.ofNat_add, BitVec.ofNat_toNat, BitVec.setWidth_eq]
  have hhue : BitVec.ofNat 8 (nextHue s + off.toNat) = s.swCur + s.swStep + off := by
    simp only [BitVec.ofNat_add, hcur, BitVec.ofNat_toNat, BitVec.setWidth_eq]
  refine ⟨_, rfl, (execPoll_of_tickElapsed off htick).trans ?_⟩
  obtain ⟨-, ht⟩ | ⟨hpast, -⟩ := sweepTick_cases off s
  · rw [ht, hhue, hcur, ← resultWord_stepped]; rfl
  · exact absurd hnext (Nat.not_le_of_lt hpast)

/-- Settles O43. -/
theorem pollSteps : Obligations.PollSteps := by
  intro off s htick hnext
  obtain ⟨us, rfl, hexec⟩ := exec_poll_steps off htick hnext
  exact ⟨_, hexec, hvUnits_ladderedAtHue _ _ _⟩

/-- Settles O44. -/
theorem pollFinishes : Obligations.PollFinishes := fun off _ htick hpast => exec_poll_finishes off htick hpast

/-- Where POLL branches: Disabled, before the interval has elapsed, or at a tick that steps or finishes (R171, R177). -/
theorem poll_state_cases (s : State) :
    s.swEn = false ∨ (s.swEn = true ∧ (s.now - s.swLast).toNat ≤ s.swInterval.toNat)
      ∨ (TickElapsed s ∧ nextHue s ≤ s.swStop.toNat) ∨ (TickElapsed s ∧ s.swStop.toNat < nextHue s) := by
  cases hen : s.swEn with
  | false => exact .inl rfl
  | true =>
    obtain hwait | hel := le_or_gt (s.now - s.swLast).toNat s.swInterval.toNat
    · exact .inr (.inl ⟨rfl, hwait⟩)
    · obtain hnext | hpast := le_or_gt (nextHue s) s.swStop.toNat
      · exact .inr (.inr (.inl ⟨⟨hen, hel⟩, hnext⟩))
      · exact .inr (.inr (.inr ⟨⟨hen, hel⟩, hpast⟩))

/-- The inversion of a POLL: the four next states it can answer, each with the condition it answers it on (R177). -/
theorem exec_poll_cases {off : BitVec 8} {s t : State} (h : exec (.poll off) s = .next t) :
    (s.swEn = false ∧ t = { s with results := s.results ++ [0] })
      ∨ (s.swEn = true ∧ t = { s with results := s.results ++ [3] })
      ∨ (TickElapsed s ∧ nextHue s ≤ s.swStop.toNat
          ∧ ∃ us, us = hvUnits (s.swCur + s.swStep + off) (gammaGate s.gammaEn s.intensity) s.nUnits
            ∧ t = { s with swLast := s.now, swCur := s.swCur + s.swStep, hue := s.swCur + s.swStep + off, units := us,
                           frames := s.frames ++ [us], results := s.results ++ [1] })
      ∨ (TickElapsed s ∧ s.swStop.toNat < nextHue s
          ∧ t = { s with swEn := false, swLast := s.now, results := s.results ++ [2] }) := by
  obtain hdis | ⟨hen, hwait⟩ | ⟨htick, hnext⟩ | ⟨htick, hpast⟩ := poll_state_cases s
  · cases (execPoll_of_disabled off hdis).symm.trans h
    exact .inl ⟨hdis, rfl⟩
  · cases (execPoll_of_not_elapsed off hen hwait).symm.trans h
    exact .inr (.inl ⟨hen, rfl⟩)
  · obtain ⟨us, hus, hexec⟩ := exec_poll_steps off htick hnext
    cases hexec.symm.trans h
    exact .inr (.inr (.inl ⟨htick, hnext, us, hus, rfl⟩))
  · cases (exec_poll_finishes off htick hpast).symm.trans h
    exact .inr (.inr (.inr ⟨htick, hpast, rfl⟩))

/-- PROG of a sweep with an extent: the percentage of the two signed differences, and nothing written (R178). -/
theorem exec_prog_of_extent {s : State} (hext : s.swStop ≠ s.swStart) :
    exec .prog s = .next { s with results := s.results ++ [resultWord .ok (floatPayload
      (percent32 ((s.swCur.toNat : Int) - s.swStart.toNat) ((s.swStop.toNat : Int) - s.swStart.toNat)))] } := by
  change execProg s = _
  obtain ⟨hno, -⟩ | ⟨-, hp⟩ := execProg_cases s
  · exact absurd hno hext
  · exact hp

/-- PROG returns one result word, which depends on SW_START, SW_STOP and SW_CUR only, and changes nothing else (R178). -/
theorem exec_prog_answers (s : State) :
    ∃ w, ∀ s' : State, s'.swStart = s.swStart → s'.swStop = s.swStop → s'.swCur = s.swCur →
      exec .prog s' = .next { s' with results := s'.results ++ [w] } := by
  by_cases hext : s.swStop = s.swStart
  · refine ⟨_, fun s' hstart hstop _ => exec_prog_of_no_extent ?_⟩
    rw [hstart, hstop, hext]
  · refine ⟨resultWord .ok (floatPayload (percent32 ((s.swCur.toNat : Int) - s.swStart.toNat)
      ((s.swStop.toNat : Int) - s.swStart.toNat))), fun s' hstart hstop hcur => ?_⟩
    rw [← hstart, ← hstop] at hext
    rw [← hstart, ← hstop, ← hcur]
    exact exec_prog_of_extent hext

end Sys2Proof.Machine

/-! SUPPORT. What one step can answer, the frames it leaves, and what a command writes, reads and emits (spec/00_scope.md
R5, R8, spec/10_state.md R20, spec/20_memory.md R53, R54, spec/42_sweep.md R170). -/

namespace Sys2Proof.Machine

/-! ## One step -/

/-- Settles O6. -/
theorem stepRunsTheDecodedCommand : Obligations.StepRunsTheDecodedCommand := fun _ _ _ _ _ hn hi hd _ =>
  step_of_decode_ok hn hi hd

/-- Settles O9. -/
theorem stepWaitsForTheHost : Obligations.StepWaitsForTheHost := fun s hn hi => by
  simp only [step, fetch, hn, hi, if_false]

/-- Settles O10. -/
theorem stepRefusesNoUnits : Obligations.StepRefusesNoUnits := fun _ hn => if_pos hn

/-- Settles O11: waiting, the reset input, a legal word and an illegal one each have a next state. -/
theorem everyStepAnswers : Obligations.EveryStepAnswers := by
  intro s hn
  obtain ⟨hi, -⟩ | ⟨rest, hi, -⟩ | ⟨cmd, now, rest, hi, -⟩ := fetch_cases s
  · exact ⟨s, stepWaitsForTheHost s hn hi⟩
  · exact ⟨_, step_of_reset hn hi⟩
  · obtain ⟨t, ht, -⟩ := step_command_answersOnce hn hi
    exact ⟨t, ht⟩

/-- A command that leaves a changed unit has emitted the units it leaves (R53, R54). -/
theorem exec_units_shown {i : Instr} {s t : State} (h : exec i s = .next t) :
    t.units = s.units ∨ t.frames = s.frames ++ [t.units] := by
  cases i with
  | setrgb r g b => cases h; exact .inr rfl
  | sethv hue val => cases h; exact .inr rfl
  | alloff => cases h; exact .inr rfl
  | setgamma en => cases h; exact .inl rfl
  | cfgswp start stop step ivl => cases h; exact .inl rfl
  | enswp en => cases en <;> cases h <;> exact .inl rfl
  | rstswp => cases h; exact .inl rfl
  | poll off =>
    obtain ⟨-, rfl⟩ | ⟨-, rfl⟩ | ⟨-, -, us, -, rfl⟩ | ⟨-, -, rfl⟩ := exec_poll_cases h
    · exact .inl rfl
    · exact .inl rfl
    · exact .inr rfl
    · exact .inl rfl
  | prog =>
    obtain ⟨w, hprog⟩ := exec_prog_answers s
    cases (hprog s rfl rfl rfl).symm.trans h
    exact .inl rfl
  | hv2rgb h v => cases h; exact .inl rfl

/-- Settles O14: an illegal word leaves the units, and a command that changes them shows them. -/
theorem unitsChangeOnlyWithAFrame : Obligations.UnitsChangeOnlyWithAFrame := by
  intro s t cmd now rest hi h hne
  obtain ⟨hn, -⟩ := step_cases h
  cases hd : decode cmd with
  | ok i =>
    rw [step_of_decode_ok hn hi hd] at h
    exact (exec_units_shown h).resolve_left hne
  | error e =>
    cases (step_of_decode_error hn hi hd).symm.trans h
    exact absurd rfl hne

/-- Settles O16: the sweep of the reset state stands at its start. -/
theorem resetMeetsSweepInvariant : Obligations.ResetMeetsSweepInvariant := .of_cur_eq_start (by decide) rfl

/-- The frames seen stay whole when none is added to them, or one of the state's own units. -/
theorem FramesWhole.of_frames {s t : State} (hs : FramesWhole s) (hn : t.nUnits = s.nUnits)
    (hframes : t.frames = s.frames ∨ t.frames = s.frames ++ [t.units]) : FramesWhole t := by
  intro f hf
  obtain heq | heq := hframes
  · rw [heq] at hf
    exact (hs f hf).trans hn.symm
  · rw [heq, List.mem_append, List.mem_singleton] at hf
    obtain hf | rfl := hf
    · exact (hs f hf).trans hn.symm
    · rfl

/-- Settles O17: no step changes the number of units, and a step adds at most a frame of its own units. -/
theorem stepKeepsFramesWhole : Obligations.StepKeepsFramesWhole := by
  refine ⟨nofun, fun s t hs h => hs.of_frames (step_nUnits h) ?_⟩
  obtain ⟨-, ⟨-, rfl⟩ | ⟨rest, -, rfl⟩ | ⟨cmd, now, rest, i, -, -, he⟩ | ⟨cmd, now, rest, e, -, -, rfl⟩⟩ := step_cases h
  · exact .inl rfl
  · exact .inl rfl
  · exact (exec_answersOnce he).atMostOneFrame
  · exact .inl rfl

/-! ## What a command writes and emits -/

/-- Settles O18, command by command: a clause whose register the command writes excludes the command, and the register of
every other clause is the same field of the next state. -/
theorem registersWrittenOnlyAsListed : Obligations.RegistersWrittenOnlyAsListed := by
  intro i s t h
  cases i with
  | setrgb r g b => cases h; simp
  | sethv hue val => cases h; simp
  | alloff => cases h; simp
  | setgamma en => cases h; simp
  | cfgswp start stop step ivl => cases h; simp
  | enswp en => cases en <;> cases h <;> simp
  | rstswp => cases h; simp
  | poll off =>
    obtain ⟨-, rfl⟩ | ⟨-, rfl⟩ | ⟨-, -, us, -, rfl⟩ | ⟨-, -, rfl⟩ := exec_poll_cases h <;> simp
  | prog =>
    obtain ⟨w, hprog⟩ := exec_prog_answers s
    cases (hprog s rfl rfl rfl).symm.trans h
    simp
  | hv2rgb h v => cases h; simp

/-- Settles O19, command by command: SETRGB, SETHV and ALLOFF emit; of the four answers of a POLL only Stepped, the one
that returns 1, comes with a frame. -/
theorem onlyTheEmittingCommandsEmit : Obligations.OnlyTheEmittingCommandsEmit := by
  intro i s t h
  cases i with
  | setrgb r g b => cases h; simp
  | sethv hue val => cases h; simp
  | alloff => cases h; simp
  | setgamma en => cases h; simp
  | cfgswp start stop step ivl => cases h; simp
  | enswp en => cases en <;> cases h <;> simp
  | rstswp => cases h; simp
  | poll off =>
    obtain ⟨-, rfl⟩ | ⟨-, rfl⟩ | ⟨-, -, us, -, rfl⟩ | ⟨-, -, rfl⟩ := exec_poll_cases h <;> simp
  | prog =>
    obtain ⟨w, hprog⟩ := exec_prog_answers s
    cases (hprog s rfl rfl rfl).symm.trans h
    simp
  | hv2rgb h v => cases h; simp

/-! ## What a command reads -/

/-- Settles O20, command by command: those that stamp or measure the clock are excluded, a Disabled POLL is Idle, and PROG
depends on the sweep's hues only. -/
theorem otherCommandsIgnoreTheClock : Obligations.OtherCommandsIgnoreTheClock := by
  intro i s now hignores
  cases i with
  | setrgb r g b => exact ⟨_, rfl, rfl⟩
  | sethv hue val => exact ⟨_, rfl, rfl⟩
  | alloff => exact ⟨_, rfl, rfl⟩
  | setgamma en => exact ⟨_, rfl, rfl⟩
  | cfgswp start stop step ivl => exact hignores.elim
  | enswp en =>
    have hen : en = false := hignores
    subst hen
    exact ⟨_, rfl, rfl⟩
  | rstswp => exact hignores.elim
  | poll off => exact ⟨_, execPoll_of_disabled off hignores, execPoll_of_disabled off hignores⟩
  | prog =>
    obtain ⟨w, hprog⟩ := exec_prog_answers s
    exact ⟨_, hprog s rfl rfl rfl, hprog _ rfl rfl rfl⟩
  | hv2rgb h v => exact ⟨_, rfl, rfl⟩

/-- Two runs of a command, the second from another hue and other units: the same next state but for those two, and each
of them is written alike by both runs or kept by both. -/
def SameButHueAndUnits (i : Instr) (s : State) (hue : BitVec 8) (us : List Rgb8) : Prop :=
  ∃ t hue' us', exec i s = .next t
    ∧ exec i { s with hue := hue, units := us } = .next { t with hue := hue', units := us' }
    ∧ (hue' = t.hue ∨ hue' = hue ∧ t.hue = s.hue) ∧ (us' = t.units ∨ us' = us ∧ t.units = s.units)

section
variable {i : Instr} {s t : State} {hue : BitVec 8} {us : List Rgb8}

/-- A command that keeps the hue and the units, in both runs. -/
theorem SameButHueAndUnits.of_kept (h : exec i s = .next t) (hhue : t.hue = s.hue) (hunits : t.units = s.units)
    (h' : exec i { s with hue := hue, units := us } = .next { t with hue := hue, units := us }) :
    SameButHueAndUnits i s hue us :=
  ⟨t, hue, us, h, h', .inr ⟨rfl, hhue⟩, .inr ⟨rfl, hunits⟩⟩

/-- A command that writes the units and keeps the hue, in both runs. -/
theorem SameButHueAndUnits.of_units_written (h : exec i s = .next t) (hhue : t.hue = s.hue)
    (h' : exec i { s with hue := hue, units := us } = .next { t with hue := hue }) : SameButHueAndUnits i s hue us :=
  ⟨t, hue, t.units, h, h', .inr ⟨rfl, hhue⟩, .inl rfl⟩

/-- A command that writes both, in both runs. -/
theorem SameButHueAndUnits.of_both_written (h : exec i s = .next t)
    (h' : exec i { s with hue := hue, units := us } = .next t) : SameButHueAndUnits i s hue us :=
  ⟨t, t.hue, t.units, h, h', .inl rfl, .inl rfl⟩

end

/-- A POLL branches on the sweep registers and the clock, and a step writes both the hue and every unit (R177). -/
theorem exec_poll_sameButHueAndUnits (off : BitVec 8) (s : State) (hue : BitVec 8) {us : List Rgb8}
    (hlen : us.length = s.nUnits) : SameButHueAndUnits (.poll off) s hue us := by
  obtain hdis | ⟨hen, hwait⟩ | ⟨htick, hnext⟩ | ⟨htick, hpast⟩ := poll_state_cases s
  · exact .of_kept (execPoll_of_disabled off hdis) rfl rfl (execPoll_of_disabled off hdis)
  · exact .of_kept (execPoll_of_not_elapsed off hen hwait) rfl rfl (execPoll_of_not_elapsed off hen hwait)
  · obtain ⟨-, rfl, hexec⟩ := exec_poll_steps off htick hnext
    obtain ⟨-, rfl, hexec'⟩ := exec_poll_steps (s := { s with hue := hue, units := us }) off htick hnext
    have hn : State.nUnits { s with hue := hue, units := us } = s.nUnits := hlen
    rw [hn] at hexec'
    exact .of_both_written hexec hexec'
  · exact .of_kept (exec_poll_finishes off htick hpast) rfl rfl (exec_poll_finishes off htick hpast)

/-- Settles O21, command by command: of the units a command reads their number only, which both runs share. -/
theorem hueAndUnitsAreNeverRead : Obligations.HueAndUnitsAreNeverRead := by
  intro i s hue us hlen
  change SameButHueAndUnits i s hue us
  have hn : State.nUnits { s with hue := hue, units := us } = s.nUnits := hlen
  cases i with
  | setrgb r g b =>
    obtain ⟨-, rfl, hexec⟩ := exec_setrgb r g b s
    obtain ⟨-, rfl, hexec'⟩ := exec_setrgb r g b { s with hue := hue, units := us }
    rw [hn] at hexec'
    exact .of_units_written hexec rfl hexec'
  | sethv h v =>
    obtain ⟨-, rfl, hexec⟩ := exec_sethv h v s
    obtain ⟨-, rfl, hexec'⟩ := exec_sethv h v { s with hue := hue, units := us }
    rw [hn] at hexec'
    exact .of_both_written hexec hexec'
  | alloff =>
    have hexec' := exec_alloff { s with hue := hue, units := us }
    rw [hn] at hexec'
    exact .of_units_written (exec_alloff s) rfl hexec'
  | setgamma en => exact .of_kept rfl rfl rfl rfl
  | cfgswp start stop step ivl => exact .of_kept rfl rfl rfl rfl
  | enswp en => cases en <;> exact .of_kept rfl rfl rfl rfl
  | rstswp => exact .of_kept rfl rfl rfl rfl
  | poll off => exact exec_poll_sameButHueAndUnits off s hue hlen
  | prog =>
    obtain ⟨w, hprog⟩ := exec_prog_answers s
    exact .of_kept (hprog s rfl rfl rfl) rfl rfl (hprog _ rfl rfl rfl)
  | hv2rgb h v => exact .of_kept rfl rfl rfl rfl

/-- Two runs of a command, the second with other results and frames behind it: the same registers after both, and the
same words and frames added. -/
def AddsRegardless (i : Instr) (s : State) (rs : List Word) (fs : List Frame) : Prop :=
  ∃ t dr df, exec i s = .next t ∧ t.results = s.results ++ dr ∧ t.frames = s.frames ++ df
    ∧ exec i { s with results := rs, frames := fs } = .next { t with results := rs ++ dr, frames := fs ++ df }

section
variable {i : Instr} {s t : State} {rs : List Word} {fs : List Frame} {w : Word}

/-- A command that returns `w` and emits nothing, in both runs. -/
theorem AddsRegardless.of_quiet (h : exec i s = .next t) (hres : t.results = s.results ++ [w])
    (hframes : t.frames = s.frames)
    (h' : exec i { s with results := rs, frames := fs } = .next { t with results := rs ++ [w], frames := fs }) :
    AddsRegardless i s rs fs :=
  ⟨t, [w], [], h, hres, by rw [hframes, List.append_nil], by rw [h', List.append_nil]⟩

/-- A command that returns `w` and emits the frame of the units it leaves, in both runs. -/
theorem AddsRegardless.of_emitted (h : exec i s = .next t) (hres : t.results = s.results ++ [w])
    (hframes : t.frames = s.frames ++ [t.units])
    (h' : exec i { s with results := rs, frames := fs }
      = .next { t with results := rs ++ [w], frames := fs ++ [t.units] }) : AddsRegardless i s rs fs :=
  ⟨t, [w], [t.units], h, hres, hframes, h'⟩

end

/-- A POLL branches on the sweep registers and the clock, and adds its own result and frame only (R177). -/
theorem exec_poll_addsRegardless (off : BitVec 8) (s : State) (rs : List Word) (fs : List Frame) :
    AddsRegardless (.poll off) s rs fs := by
  obtain hdis | ⟨hen, hwait⟩ | ⟨htick, hnext⟩ | ⟨htick, hpast⟩ := poll_state_cases s
  · exact .of_quiet (execPoll_of_disabled off hdis) rfl rfl (execPoll_of_disabled off hdis)
  · exact .of_quiet (execPoll_of_not_elapsed off hen hwait) rfl rfl (execPoll_of_not_elapsed off hen hwait)
  · obtain ⟨-, rfl, hexec⟩ := exec_poll_steps off htick hnext
    obtain ⟨-, rfl, hexec'⟩ := exec_poll_steps (s := { s with results := rs, frames := fs }) off htick hnext
    exact .of_emitted hexec rfl rfl hexec'
  · exact .of_quiet (exec_poll_finishes off htick hpast) rfl rfl (exec_poll_finishes off htick hpast)

/-- Settles O22, command by command: every command appends to the two lists and looks at neither. -/
theorem observationsAreNeverRead : Obligations.ObservationsAreNeverRead := by
  intro i s rs fs
  change AddsRegardless i s rs fs
  cases i with
  | setrgb r g b => exact .of_emitted rfl rfl rfl rfl
  | sethv hue val => exact .of_emitted rfl rfl rfl rfl
  | alloff => exact .of_emitted rfl rfl rfl rfl
  | setgamma en => exact .of_quiet rfl rfl rfl rfl
  | cfgswp start stop step ivl => exact .of_quiet rfl rfl rfl rfl
  | enswp en => cases en <;> exact .of_quiet rfl rfl rfl rfl
  | rstswp => exact .of_quiet rfl rfl rfl rfl
  | poll off => exact exec_poll_addsRegardless off s rs fs
  | prog =>
    obtain ⟨w, hprog⟩ := exec_prog_answers s
    exact .of_quiet (hprog s rfl rfl rfl) rfl rfl (hprog _ rfl rfl rfl)
  | hv2rgb h v => exact .of_quiet rfl rfl rfl rfl

end Sys2Proof.Machine

/-! SUPPORT. A ladder pass as one list, its sum and its collisions, and the flat word of a frame (spec/40_datapath.md
R104, spec/30_encoding.md R83). -/

namespace Sys2Proof.Machine

open Sys2Proof.Laws

/-! ## The ladder -/

/-- A ladder pass as a list: the full units, the remainder, the units that are off (R103). -/
theorem ladder_eq_append (v : Intensity) {n : Nat} (hn : 1 ≤ n) :
    ladder v n = List.replicate (ladderFull v n) 255 ++ ladderRem v :: List.replicate (n - 1 - ladderFull v n) 0 := by
  have hfull := ladderFull_lt v hn
  refine List.ext_getElem (by simp; omega) fun i hi _ => ?_
  have hlevel : (ladder v n)[i] = ladderLevel v n i := by simp [ladder]
  rw [hlevel]
  obtain hlt | rfl | hgt := lt_trichotomy i (ladderFull v n)
  · rw [ladderLevel_of_lt hlt, List.getElem_append_left (by simpa using hlt), List.getElem_replicate]
  · simp
  · obtain ⟨k, rfl⟩ := Nat.exists_eq_add_of_lt hgt
    rw [ladderLevel_of_gt hgt, List.getElem_append_right (by simp; omega)]
    simp [Nat.add_assoc]

/-- The clamp does not apply while the fixture has room for the value (R103). -/
theorem ladderFull_of_lt {v : Intensity} {n : Nat} (h : v.toNat < 256 * n) : ladderFull v n = v.toNat / 256 := by
  unfold ladderFull; omega

/-- Without the clamp the levels sum to `v - v div 256`: a full unit shows 255 of its 256 steps (R104 item 2). -/
theorem ladder_sum {v : Intensity} {n : Nat} (h : v.toNat < 256 * n) :
    ((ladder v n).map BitVec.toNat).sum = v.toNat - v.toNat / 256 := by
  have hrem : (ladderRem v).toNat = v.toNat % 256 := by
    rw [ladderRem, BitVec.toNat_ofNat]
    exact Nat.mod_mod _ _
  have hsum : ((ladder v n).map BitVec.toNat).sum = v.toNat / 256 * 255 + v.toNat % 256 := by
    rw [ladder_eq_append v (by omega), ladderFull_of_lt h]
    simp [hrem]
  omega

/-- Settles O26: monotone because a step of the value by 1 takes at most 1 off. -/
theorem ladderSumIsMonotone : Obligations.LadderSumIsMonotone := by
  refine ⟨fun _ _ h => ladder_sum h, fun v w n hvw hw => ?_, by decide⟩
  rw [ladder_sum (Nat.lt_of_le_of_lt hvw hw), ladder_sum hw]
  omega

/-- A value that fills a unit shows the same levels as the next value, which lights one unit more at 0 (R104 item 3). -/
theorem ladder_eq_of_unit_filled {v w : Intensity} {n : Nat} (hfill : v.toNat % 256 = 255)
    (hw : w.toNat = v.toNat + 1) (hlt : w.toNat < 256 * n) : ladder v n = ladder w n := by
  have hfull : ladderFull w n = ladderFull v n + 1 := by
    rw [ladderFull_of_lt hlt, ladderFull_of_lt (by omega)]
    omega
  have hremv : ladderRem v = 255 := by rw [ladderRem, hfill]; rfl
  have hremw : ladderRem w = 0 := by
    have hzero : w.toNat % 256 = 0 := by omega
    rw [ladderRem, hzero]; rfl
  have hroom : n - 1 - ladderFull v n = (n - 1 - ladderFull w n) + 1 := by
    have hbound := ladderFull_of_lt hlt
    omega
  rw [ladder_eq_append v (by omega), ladder_eq_append w (by omega), hremv, hremw, hroom, hfull, List.replicate_succ,
    List.replicate_succ', List.append_assoc, List.singleton_append]

/-- Settles O27: equal levels have equal sums, so the values are neighbours on two sides of a filled unit. -/
theorem ladderCollisions : Obligations.LadderCollisions := by
  intro v w n hn
  have hv := v.isLt
  have hw := w.isLt
  refine ⟨by omega, fun hvw => ⟨fun heq => ?_, fun hpair => ?_⟩⟩
  · have hsum := congrArg (fun levels => (levels.map BitVec.toNat).sum) heq
    simp only [ladder_sum (show v.toNat < 256 * n by omega), ladder_sum (show w.toNat < 256 * n by omega)] at hsum
    bv_omega
  · obtain ⟨rfl, rfl⟩ | ⟨rfl, rfl⟩ | ⟨rfl, rfl⟩ := hpair
    all_goals exact ladder_eq_of_unit_filled (by decide) (by decide) (by simp; omega)

/-- Settles O28: the clamped `full` is the last unit, so no unit is off. -/
theorem ladderOnSmallFixtures : Obligations.LadderOnSmallFixtures := by
  refine ⟨fun v n hn hclamp => ?_, by decide, by decide⟩
  have hfull : ladderFull v n = n - 1 := by unfold ladderFull; omega
  rw [ladder_eq_append v hn, hfull, Nat.sub_self, List.replicate_zero, ladderRem]

/-! ## The flat word of a frame -/

/-- One unit as 24 bits (R83). -/
theorem unitBits_toNat (u : Rgb8) : (unitBits u).toNat = u.r.toNat * 2 ^ 16 + u.g.toNat * 2 ^ 8 + u.b.toNat := by
  rw [unitBits, append_toNat, append_toNat]
  omega

/-- Nothing stands above the last unit (R83). -/
theorem frameWord_lt (f : Frame) : frameWord f < 2 ^ (24 * f.length) := by
  induction f with
  | nil => exact Nat.one_pos
  | cons u rest ih =>
    have hu := (unitBits u).isLt
    rw [frameWord, List.length_cons, Nat.mul_succ, Nat.pow_add]
    omega

/-- Unit `i` stands `24 * i` bits up (R83). -/
theorem frameWord_field {f : Frame} {i : Nat} {u : Rgb8} (h : f[i]? = some u) :
    frameWord f / 2 ^ (24 * i) % 2 ^ 24 = (unitBits u).toNat := by
  induction f generalizing i with
  | nil => cases h
  | cons v rest ih =>
    have hv := (unitBits v).isLt
    cases i with
    | zero =>
      cases h
      rw [frameWord]
      omega
    | succ i =>
      have hrest : frameWord (v :: rest) / 2 ^ 24 = frameWord rest := by rw [frameWord]; omega
      rw [Nat.mul_succ, Nat.add_comm, Nat.pow_add, ← Nat.div_div_eq_div_mul, hrest]
      exact ih h

/-- Settles O29. -/
theorem frameFlatLayout : Obligations.FrameFlatLayout := fun f =>
  ⟨frameWord_lt f, fun _ u h => (frameWord_field h).trans (unitBits_toNat u)⟩

/-! ## The color wheel -/

/-- The three segments of the wheel: which channel falls, which rises, and which is 0 (R134). -/
theorem wheelRgb_cases (hc : Nat) (vc : Intensity) :
    (wheelSegment hc = 0
        ∧ wheelRgb hc vc = (rampDown (wheelPosition hc) vc.toNat, rampUp (wheelPosition hc) vc.toNat, 0))
      ∨ (wheelSegment hc = 1
        ∧ wheelRgb hc vc = (0, rampDown (wheelPosition hc) vc.toNat, rampUp (wheelPosition hc) vc.toNat))
      ∨ (wheelSegment hc = 2
        ∧ wheelRgb hc vc = (rampUp (wheelPosition hc) vc.toNat, 0, rampDown (wheelPosition hc) vc.toNat)) := by
  obtain hs | hs | hs : wheelSegment hc = 0 ∨ wheelSegment hc = 1 ∨ wheelSegment hc = 2 := by
    have := wheelSegment_le hc
    omega
  · exact .inl ⟨hs, by simp only [wheelRgb, hs]⟩
  · exact .inr (.inl ⟨hs, by simp only [wheelRgb, hs]⟩)
  · exact .inr (.inr ⟨hs, by simp only [wheelRgb, hs]⟩)

/-- The falling and the rising channel share the value, less at most 1 that the two roundings lose (R134). -/
theorem ramps_sum {pe vc : Nat} (hp : pe ≤ 1023) (hv : vc ≤ 1023) :
    (rampDown pe vc).toNat + (rampUp pe vc).toNat ≤ vc
      ∧ vc ≤ (rampDown pe vc).toNat + (rampUp pe vc).toNat + 1 := by
  have hshare : (1023 - pe) * vc + pe * vc = 1023 * vc := by rw [← Nat.add_mul, Nat.sub_add_cancel hp]
  rw [rampDown_toNat pe hv, rampUp_toNat hp hv]
  omega

/-- Settles O36: in each segment two channels share the value and the third is 0. -/
theorem wheelStaysWithinTheValue : Obligations.WheelStaysWithinTheValue := by
  intro hc vc _
  obtain ⟨hle, hge⟩ := ramps_sum (wheelPosition_le hc) (Nat.le_of_lt_succ vc.isLt)
  have hzero : (0 : Intensity).toNat = 0 := rfl
  obtain ⟨-, hw⟩ | ⟨-, hw⟩ | ⟨-, hw⟩ := wheelRgb_cases hc vc <;> rw [hw] <;> dsimp only
  · exact ⟨by omega, by omega, .inr (.inr rfl)⟩
  · exact ⟨by omega, by omega, .inl rfl⟩
  · exact ⟨by omega, by omega, .inr (.inl rfl)⟩

/-- An OK result with a color, as a number: R, G and B ten bits apart from bit 0 up (R80). -/
theorem resultWord_rgbPayload_toNat (r g b : Intensity) :
    (resultWord .ok (rgbPayload r g b)).toNat = r.toNat * 2 ^ 20 + g.toNat * 2 ^ 10 + b.toNat := by
  have hok : (statusCode .ok).toNat = 0 := rfl
  rw [resultWord_toNat, hok, rgbPayload, append_toNat, append_toNat, append_toNat, BitVec.toNat_ofNat]
  omega

/-- Settles O34: the word of the wheel color, segment by segment; no ramp is truncated. -/
theorem hv2rgbReturnsTheWheelColor : Obligations.Hv2rgbReturnsTheWheelColor := by
  intro h v s t pe vc down up ht hpe hvc hdown hup
  have hseg : wheelSegment (clamp3071 h) = t := ht.symm
  have hpos : wheelPosition (clamp3071 h) = pe := by rw [hpe, ← hseg]; rfl
  have hval : (clamp10 v).toNat = vc := (clampsAndGammaGate.1 v).trans hvc.symm
  have hvle : vc ≤ 1023 := by omega
  have hrampDown : (rampDown pe vc).toNat = down := (rampDown_toNat pe hvle).trans hdown.symm
  have hrampUp : (rampUp pe vc).toNat = up := (rampUp_toNat (by omega) hvle).trans hup.symm
  refine ⟨_, rfl, ?_⟩
  rw [resultWord_rgbPayload_toNat]
  obtain ⟨hs, hw⟩ | ⟨hs, hw⟩ | ⟨hs, hw⟩ := wheelRgb_cases (clamp3071 h) (clamp10 v)
  all_goals
    rw [hpos, hval] at hw
    rw [hseg] at hs
    subst hs
    simp [hw, hrampDown, hrampUp]

end Sys2Proof.Machine

/-! SUPPORT. Binary32 magnitudes as numbers, and rounding between two neighbouring ones (spec/42_sweep.md R175). An
encoding without its sign is a natural number; its value, counted in units of `1 / 2^149`, is strictly increasing in it,
so rounding is the choice between an encoding and the next one. -/

namespace Sys2Proof.Machine

open Sys2Proof.Laws

/-! ## The value of an encoding -/

/-- The value of an encoding without its sign: exponent field `e / 2^23`, significand below it (R175). -/
def encodedValue (e : Nat) : Nat :=
  if e / 2 ^ 23 = 0 then e % 2 ^ 23 else (2 ^ 23 + e % 2 ^ 23) * 2 ^ (e / 2 ^ 23 - 1)

/-- The magnitude of a binary32 value is the value of its encoding with the sign bit put away. -/
theorem magnitude_eq_encodedValue (x : BitVec 32) : magnitude x = encodedValue (x.toNat % 2 ^ 31) := by
  have he : x.toNat % 2 ^ 31 / 2 ^ 23 = x.toNat / 2 ^ 23 % 256 := by omega
  have hf : x.toNat % 2 ^ 31 % 2 ^ 23 = x.toNat % 2 ^ 23 := by omega
  rw [magnitude, encodedValue, he, hf]

theorem magnitude_of_nonneg {x : BitVec 32} (h : x.toNat < 2 ^ 31) : magnitude x = encodedValue x.toNat := by
  rw [magnitude_eq_encodedValue, Nat.mod_eq_of_lt h]

/-- An encoding splits into the exponent `t` of its last place and its significand `q`, which fills 24 bits above the
subnormals. -/
def HasPlace (e t q : Nat) : Prop := e = t * 2 ^ 23 + q ∧ q < 2 ^ 24 ∧ (t = 0 ∨ 2 ^ 23 ≤ q)

theorem exists_hasPlace (e : Nat) : ∃ t q, HasPlace e t q := by
  obtain h | h := Nat.eq_zero_or_pos (e / 2 ^ 23)
  · exact ⟨0, e, by omega, by omega, .inl rfl⟩
  · exact ⟨e / 2 ^ 23 - 1, 2 ^ 23 + e % 2 ^ 23, by omega, by omega, .inr (by omega)⟩

/-- The value of a significand at its place; a carry to `2^24` has moved into the exponent by itself. -/
theorem encodedValue_at {t q : Nat} (hq : q ≤ 2 ^ 24) (hnormal : t = 0 ∨ 2 ^ 23 ≤ q) :
    encodedValue (t * 2 ^ 23 + q) = q * 2 ^ t := by
  unfold encodedValue
  obtain hsub | hnorm := Nat.lt_or_ge q (2 ^ 23)
  · obtain rfl : t = 0 := by omega
    rw [if_pos (by omega)]
    omega
  · obtain hlt | rfl := Nat.lt_or_eq_of_le hq
    · have he : (t * 2 ^ 23 + q) / 2 ^ 23 = t + 1 := by omega
      have hf : 2 ^ 23 + (t * 2 ^ 23 + q) % 2 ^ 23 = q := by omega
      rw [if_neg (by omega), he, hf, Nat.add_sub_cancel]
    · have he : (t * 2 ^ 23 + 2 ^ 24) / 2 ^ 23 = t + 2 := by omega
      have hf : (t * 2 ^ 23 + 2 ^ 24) % 2 ^ 23 = 0 := by omega
      rw [if_neg (by omega), he, hf, show t + 2 - 1 = t + 1 by omega, Nat.pow_succ]
      omega

section
variable {e t q : Nat}

theorem HasPlace.value (h : HasPlace e t q) : encodedValue e = q * 2 ^ t := by
  obtain ⟨rfl, hq, hnormal⟩ := h
  exact encodedValue_at hq.le hnormal

/-- The next encoding is worth one more last place. -/
theorem HasPlace.value_succ (h : HasPlace e t q) : encodedValue (e + 1) = (q + 1) * 2 ^ t := by
  obtain ⟨rfl, hq, hnormal⟩ := h
  rw [Nat.add_assoc]
  exact encodedValue_at (by omega) (by omega)

end

/-- Encodings are ordered as their values. -/
theorem encodedValue_strictMono : StrictMono encodedValue := by
  refine strictMono_nat_of_lt_succ fun e => ?_
  obtain ⟨t, q, h⟩ := exists_hasPlace e
  rw [h.value, h.value_succ]
  exact Nat.mul_lt_mul_of_pos_right q.lt_succ_self (Nat.two_pow_pos t)

/-- The double of a value is a value: one more in the exponent, or a subnormal significand shifted. -/
theorem exists_encodedValue_double (e : Nat) : ∃ e', encodedValue e' = encodedValue e * 2 := by
  obtain ⟨t, q, h⟩ := exists_hasPlace e
  obtain ⟨-, hq, hnormal⟩ := id h
  obtain hsub | hnorm := Nat.lt_or_ge q (2 ^ 23)
  · obtain rfl : t = 0 := by omega
    refine ⟨0 * 2 ^ 23 + 2 * q, ?_⟩
    rw [encodedValue_at (by omega) (.inl rfl), h.value]
    omega
  · refine ⟨(t + 1) * 2 ^ 23 + q, ?_⟩
    rw [encodedValue_at hq.le (.inr hnorm), h.value, Nat.pow_succ, Nat.mul_assoc]

/-- A significand of at most 24 bits has an exact encoding at every place. -/
theorem exists_encodedValue {q : Nat} (hq : q ≤ 2 ^ 24) (k : Nat) : ∃ e, encodedValue e = q * 2 ^ k := by
  induction k with
  | zero => exact ⟨0 * 2 ^ 23 + q, encodedValue_at hq (.inl rfl)⟩
  | succ k ih =>
    obtain ⟨e, he⟩ := ih
    obtain ⟨e', he'⟩ := exists_encodedValue_double e
    exact ⟨e', by rw [he', he, Nat.pow_succ, Nat.mul_assoc]⟩

/-! ## Rounding -/

/-- `num / den` counted in units of `1 / 2^149` is `num * 2^149 / den`. -/
def scaled (num : Nat) : Nat := num * 2 ^ 149

/-- The encoding that `rne32` finds before it caps a value too large at infinity (R175). -/
def roundedEncoding (num den : Nat) : Nat :=
  let t := Nat.log2 (scaled num / den) - 23
  let d := den * 2 ^ t
  let q := scaled num / d
  let r := scaled num % d
  t * 2 ^ 23 + if d < 2 * r ∨ (2 * r = d ∧ q % 2 = 1) then q + 1 else q

/-- The encoding of infinity (R175). -/
def infinity32 : Nat := 0x7F800000

/-- A capped encoding leaves the sign bit free. -/
theorem capped_lt (num den : Nat) : min (roundedEncoding num den) infinity32 < 2 ^ 31 :=
  Nat.lt_of_le_of_lt (Nat.min_le_right _ _) (by decide)

/-- The answer of `rne32`: the sign above the rounded encoding, which is capped at infinity. -/
theorem rne32_toNat (neg : Bool) (num den : Nat) :
    (rne32 neg num den).toNat = neg.toNat * 2 ^ 31 + min (roundedEncoding num den) infinity32 := by
  have hcap := capped_lt num den
  change (BitVec.ofBool neg ++ BitVec.ofNat 31 (min (roundedEncoding num den) infinity32)).toNat = _
  rw [append_toNat, BitVec.toNat_ofBool, BitVec.toNat_ofNat, Nat.mod_eq_of_lt hcap]

/-- The exact quotient is nearer to the encoding after `e` than to `e`, or as near and `e` is odd. -/
def RoundsUp (e num den : Nat) : Prop :=
  (encodedValue e + encodedValue (e + 1)) * den < 2 * scaled num
    ∨ (2 * scaled num = (encodedValue e + encodedValue (e + 1)) * den ∧ e % 2 = 1)

/-- The exact quotient lies from the encoding `e` up to the next, and is rounded to the nearer of the two, the even one on
a tie (R175). -/
structure RoundsBetween (e num den : Nat) : Prop where
  below : encodedValue e * den ≤ scaled num
  above : scaled num < encodedValue (e + 1) * den
  up : RoundsUp e num den → roundedEncoding num den = e + 1
  down : ¬ RoundsUp e num den → roundedEncoding num den = e

/-- The place `rne32` rounds at gives the integral part of a quotient 24 bits, or it is the last place. -/
theorem hasPlace_log2 (m : Nat) :
    HasPlace ((Nat.log2 m - 23) * 2 ^ 23 + m / 2 ^ (Nat.log2 m - 23)) (Nat.log2 m - 23) (m / 2 ^ (Nat.log2 m - 23)) := by
  refine ⟨rfl, ?_, ?_⟩
  · have hpow : 2 ^ (Nat.log2 m + 1) ≤ 2 ^ (Nat.log2 m - 23) * 2 ^ 24 := by
      rw [← Nat.pow_add]
      exact Nat.pow_le_pow_right Nat.two_pos (by omega)
    exact Nat.div_lt_of_lt_mul (Nat.lt_of_lt_of_le Nat.lt_log2_self hpow)
  · obtain hsmall | hlarge := Nat.lt_or_ge (Nat.log2 m) 23
    · exact .inl (by omega)
    · have hm : m ≠ 0 := by
        rintro rfl
        simp at hlarge
      rw [Nat.le_div_iff_mul_le (Nat.two_pow_pos _), ← Nat.pow_add, Nat.add_sub_cancel' hlarge]
      exact .inr (Nat.log2_self_le hm)

/-- Every quotient lies between two neighbouring encodings and is rounded to one of them (R175). -/
theorem exists_roundsBetween (num : Nat) {den : Nat} (hden : 0 < den) : ∃ e, RoundsBetween e num den := by
  have hplace := hasPlace_log2 (scaled num / den)
  have hdef : roundedEncoding num den =
      let t := Nat.log2 (scaled num / den) - 23
      let d := den * 2 ^ t
      t * 2 ^ 23 + if d < 2 * (scaled num % d) ∨ (2 * (scaled num % d) = d ∧ scaled num / d % 2 = 1)
        then scaled num / d + 1 else scaled num / d := rfl
  dsimp only at hdef
  generalize Nat.log2 (scaled num / den) - 23 = t at hplace hdef
  rw [Nat.div_div_eq_div_mul] at hplace
  have hd : 0 < den * 2 ^ t := Nat.mul_pos hden (Nat.two_pow_pos t)
  have hdivmod := Nat.div_add_mod (scaled num) (den * 2 ^ t)
  have hmod := Nat.mod_lt (scaled num) hd
  have hvalue : encodedValue (t * 2 ^ 23 + scaled num / (den * 2 ^ t)) * den
      = den * 2 ^ t * (scaled num / (den * 2 ^ t)) := by
    rw [hplace.value]; ring
  have hsucc : encodedValue (t * 2 ^ 23 + scaled num / (den * 2 ^ t) + 1) * den
      = den * 2 ^ t * (scaled num / (den * 2 ^ t)) + den * 2 ^ t := by
    rw [hplace.value_succ]; ring
  have hup : RoundsUp (t * 2 ^ 23 + scaled num / (den * 2 ^ t)) num den ↔
      den * 2 ^ t < 2 * (scaled num % (den * 2 ^ t))
        ∨ (2 * (scaled num % (den * 2 ^ t)) = den * 2 ^ t ∧ scaled num / (den * 2 ^ t) % 2 = 1) := by
    rw [RoundsUp, Nat.add_mul, hvalue, hsucc]
    omega
  refine ⟨t * 2 ^ 23 + scaled num / (den * 2 ^ t), by omega, by omega, fun h => ?_, fun h => ?_⟩
  · rw [hdef, if_pos (hup.mp h), Nat.add_assoc]
  · rw [hdef, if_neg (mt hup.mpr h)]

section
variable {e num den : Nat}

/-- A quotient that is the value of an encoding is rounded to it. -/
theorem roundedEncoding_of_exact (hden : 0 < den) (h : encodedValue e * den = scaled num) :
    roundedEncoding num den = e := by
  obtain ⟨e', hbelow, habove, -, hdown⟩ := exists_roundsBetween num hden
  have hle : e' ≤ e := by
    rw [← encodedValue_strictMono.le_iff_le]
    exact Nat.le_of_mul_le_mul_right (hbelow.trans_eq h.symm) hden
  have hlt : e < e' + 1 := by
    rw [← encodedValue_strictMono.lt_iff_lt]
    exact Nat.lt_of_mul_lt_mul_right (h.trans_lt habove)
  obtain rfl : e' = e := by omega
  refine hdown fun hup => ?_
  rw [RoundsUp, Nat.add_mul] at hup
  omega

/-- The two encodings a quotient can be rounded to. -/
theorem RoundsBetween.rounded_cases (h : RoundsBetween e num den) :
    (RoundsUp e num den ∧ roundedEncoding num den = e + 1) ∨ (¬ RoundsUp e num den ∧ roundedEncoding num den = e) := by
  by_cases hup : RoundsUp e num den
  · exact .inl ⟨hup, h.up hup⟩
  · exact .inr ⟨hup, h.down hup⟩

/-- No encoding's value is nearer to the quotient than the one it is rounded to, and another is as near only when that one
is even (R175). -/
theorem roundedEncoding_nearest (num : Nat) (hden : 0 < den) (y : Nat) :
    ((encodedValue (roundedEncoding num den) : Int) * den - scaled num).natAbs
        ≤ ((encodedValue y : Int) * den - scaled num).natAbs
      ∧ (((encodedValue (roundedEncoding num den) : Int) * den - scaled num).natAbs
          = ((encodedValue y : Int) * den - scaled num).natAbs →
        y = roundedEncoding num den ∨ roundedEncoding num den % 2 = 0) := by
  obtain ⟨e, he⟩ := exists_roundsBetween num hden
  have hbelow := he.below
  have habove := he.above
  have hy : (y < e ∧ encodedValue y * den < encodedValue e * den) ∨ y = e ∨ y = e + 1
      ∨ (e + 1 < y ∧ encodedValue (e + 1) * den < encodedValue y * den) := by
    obtain hlt | heq | heq | hgt : y < e ∨ y = e ∨ y = e + 1 ∨ e + 1 < y := by omega
    · exact .inl ⟨hlt, Nat.mul_lt_mul_of_pos_right (encodedValue_strictMono hlt) hden⟩
    · exact .inr (.inl heq)
    · exact .inr (.inr (.inl heq))
    · exact .inr (.inr (.inr ⟨hgt, Nat.mul_lt_mul_of_pos_right (encodedValue_strictMono hgt) hden⟩))
  simp only [← Nat.cast_mul]
  have hcases := he.rounded_cases
  rw [RoundsUp, Nat.add_mul] at hcases
  obtain ⟨hup, hr⟩ | ⟨hup, hr⟩ := hcases
  · rw [hr]
    obtain ⟨-, hy⟩ | rfl | rfl | ⟨-, hy⟩ := hy <;> omega
  · rw [hr]
    obtain ⟨-, hy⟩ | rfl | rfl | ⟨-, hy⟩ := hy <;> omega

end

section
variable {e num den num' den' : Nat}

/-- Quotients compared by cross multiplication keep their order when both are counted in units of `1 / 2^149`. -/
theorem scaled_mul_le (h : num * den' ≤ num' * den) : scaled num * den' ≤ scaled num' * den := calc
  num * 2 ^ 149 * den' = num * den' * 2 ^ 149 := by ring
  _ ≤ num' * den * 2 ^ 149 := Nat.mul_le_mul_right _ h
  _ = num' * 2 ^ 149 * den := by ring

/-- Of two quotients that lie from the same encoding up to the next, the greater rounds up when the other does. -/
theorem RoundsUp.mono (hup : RoundsUp e num den) (hden : 0 < den) (hden' : 0 < den') (h : num * den' ≤ num' * den) :
    RoundsUp e num' den' := by
  have hscaled := scaled_mul_le h
  unfold RoundsUp at hup ⊢
  generalize encodedValue e + encodedValue (e + 1) = m at hup ⊢
  obtain hnear | ⟨htie, hodd⟩ := hup
  · refine .inl (Nat.lt_of_mul_lt_mul_right (a := den) ?_)
    calc m * den' * den = m * den * den' := by ring
      _ < 2 * scaled num * den' := Nat.mul_lt_mul_of_pos_right hnear hden'
      _ = 2 * (scaled num * den') := by ring
      _ ≤ 2 * (scaled num' * den) := Nat.mul_le_mul_left 2 hscaled
      _ = 2 * scaled num' * den := by ring
  · have hle : m * den' ≤ 2 * scaled num' := by
      refine Nat.le_of_mul_le_mul_right (c := den) ?_ hden
      calc m * den' * den = m * den * den' := by ring
        _ = 2 * (scaled num * den') := by rw [← htie]; ring
        _ ≤ 2 * (scaled num' * den) := Nat.mul_le_mul_left 2 hscaled
        _ = 2 * scaled num' * den := by ring
    obtain hlt | heq := Nat.lt_or_eq_of_le hle
    · exact .inl hlt
    · exact .inr ⟨heq.symm, hodd⟩

/-- Rounding is monotone: a greater quotient is not rounded to a lesser encoding. -/
theorem roundedEncoding_mono (hden : 0 < den) (hden' : 0 < den') (h : num * den' ≤ num' * den) :
    roundedEncoding num den ≤ roundedEncoding num' den' := by
  obtain ⟨e, he⟩ := exists_roundsBetween num hden
  obtain ⟨e', he'⟩ := exists_roundsBetween num' hden'
  have hle : encodedValue e < encodedValue (e' + 1) := by
    refine Nat.lt_of_mul_lt_mul_right (a := den * den') ?_
    calc encodedValue e * (den * den') = encodedValue e * den * den' := by ring
      _ ≤ scaled num * den' := Nat.mul_le_mul_right _ he.below
      _ ≤ scaled num' * den := scaled_mul_le h
      _ < encodedValue (e' + 1) * den' * den := Nat.mul_lt_mul_of_pos_right he'.above hden
      _ = encodedValue (e' + 1) * (den * den') := by ring
  obtain hlt | rfl := Nat.lt_or_eq_of_le (Nat.le_of_lt_succ (encodedValue_strictMono.lt_iff_lt.mp hle))
  · obtain ⟨-, hr⟩ | ⟨-, hr⟩ := he.rounded_cases <;> obtain ⟨-, hr'⟩ | ⟨-, hr'⟩ := he'.rounded_cases <;> omega
  · obtain ⟨hup, hr⟩ | ⟨-, hr⟩ := he.rounded_cases
    · rw [hr, he'.up (hup.mono hden hden' h)]
    · obtain ⟨-, hr'⟩ | ⟨-, hr'⟩ := he'.rounded_cases <;> omega

end

/-! ## The encodings `rne32` answers -/

/-- The sign of a binary32 value is the top bit of its encoding. -/
theorem signOf_eq (x : BitVec 32) : signOf x = decide (2 ^ 31 ≤ x.toNat) := BitVec.msb_eq_decide x

theorem signOf_rne32 (neg : Bool) (num den : Nat) : signOf (rne32 neg num den) = neg := by
  have hcap := capped_lt num den
  rw [signOf_eq, rne32_toNat]
  cases neg with
  | false => simp; omega
  | true => simp

/-- The magnitude of a rounded value is the value of its encoding, whatever its sign. -/
theorem magnitude_rne32 (neg : Bool) (num den : Nat) :
    magnitude (rne32 neg num den) = encodedValue (min (roundedEncoding num den) infinity32) := by
  have hcap := capped_lt num den
  rw [magnitude_eq_encodedValue, rne32_toNat]
  congr 1
  omega

/-- Without a sign the encoding is the rounded one, while that is finite. -/
theorem rne32_toNat_of_finite {num den : Nat} (h : (rne32 false num den).toNat < infinity32) :
    (rne32 false num den).toNat = roundedEncoding num den := by
  rw [rne32_toNat] at h ⊢
  rw [Bool.toNat_false, Nat.zero_mul, Nat.zero_add] at h ⊢
  omega

/-- Settles O50: the sign stands apart from the magnitude, and a finite result is the rounded encoding. -/
theorem roundingIsNearestTiesToEven : Obligations.RoundingIsNearestTiesToEven := by
  intro neg num den hden
  refine ⟨signOf_rne32 neg num den, by rw [magnitude_rne32, magnitude_rne32], fun hfin y hy => ?_⟩
  have hr : (rne32 false num den).toNat = roundedEncoding num den := rne32_toNat_of_finite hfin
  have hmr : magnitude (rne32 false num den) = encodedValue (roundedEncoding num den) := by
    rw [← hr]; exact magnitude_of_nonneg (by omega)
  have hnear := roundedEncoding_nearest num hden y.toNat
  rw [← hmr, ← magnitude_of_nonneg (x := y) (by omega), ← hr, BitVec.toNat_inj, scaled, Nat.cast_mul] at hnear
  exact hnear

/-- A value of an encoding that is finite is rounded to that encoding, with the sign asked for. -/
theorem rne32_of_exact {e num den : Nat} (neg : Bool) (hden : 0 < den) (hfin : e ≤ infinity32)
    (h : encodedValue e * den = scaled num) : (rne32 neg num den).toNat = neg.toNat * 2 ^ 31 + e := by
  rw [rne32_toNat, roundedEncoding_of_exact hden h, Nat.min_eq_left hfin]

/-- Settles O56: the value of a finite encoding is rounded to it, and values increase with their encodings. -/
theorem magnitudeReadsTheEncoding : Obligations.MagnitudeReadsTheEncoding := by
  refine ⟨fun x hx => BitVec.eq_of_toNat_eq ?_, fun x y hx hy hxy => ?_, by decide, by decide⟩
  · rw [rne32_of_exact (e := x.toNat % 2 ^ 31) _ (Nat.two_pow_pos 149) (by unfold infinity32; omega)
      (by rw [magnitude_eq_encodedValue, scaled])]
    have hlt := x.isLt
    obtain hpos | hneg := Nat.lt_or_ge x.toNat (2 ^ 31)
    · rw [decide_eq_false (by omega), Bool.toNat_false]; omega
    · rw [decide_eq_true hneg, Bool.toNat_true]; omega
  · rw [magnitude_of_nonneg (by omega), magnitude_of_nonneg (by omega)]
    exact encodedValue_strictMono hxy

/-! ## PROG's arithmetic -/

/-- An integer of at most 24 bits is exact in binary32, with its sign (R175). -/
theorem magnitude_f32 {n : Int} (h : n.natAbs ≤ 2 ^ 24) : magnitude (f32 n) = n.natAbs * 2 ^ 149 := by
  obtain ⟨e, he⟩ := exists_encodedValue h 149
  have hinf : encodedValue infinity32 = 2 ^ 23 * 2 ^ 254 := by decide
  have hfin : e < infinity32 := by
    rw [← encodedValue_strictMono.lt_iff_lt, he, hinf]
    omega
  have hround : roundedEncoding n.natAbs 1 = e := roundedEncoding_of_exact Nat.one_pos (by rw [he, Nat.mul_one, scaled])
  rw [f32, magnitude_rne32, hround, Nat.min_eq_left hfin.le, he]

theorem signOf_f32 (n : Int) : signOf (f32 n) = decide (n < 0) := signOf_rne32 _ _ _

/-- Settles O49. -/
theorem smallIntegersAreExact : Obligations.SmallIntegersAreExact := fun n h =>
  ⟨magnitude_f32 (by omega), signOf_f32 n⟩

/-- An OK result with a binary32 value, as a number (R80). -/
theorem resultWord_floatPayload_toNat (x : BitVec 32) : (resultWord .ok (floatPayload x)).toNat = x.toNat := by
  have hok : (statusCode .ok).toNat = 0 := rfl
  rw [resultWord_toNat, hok, floatPayload, append_toNat, BitVec.toNat_ofNat]
  omega

/-- Settles O47: PROG's word is its percentage, and the signs of the two operations are the top bits. -/
theorem progReturnsPercent : Obligations.ProgReturnsPercent := by
  refine ⟨?_, fun x y _ _ _ => ?_, fun x y _ _ => ?_, by decide⟩
  · rintro s n d hext rfl rfl
    exact ⟨_, exec_prog_of_extent hext, resultWord_floatPayload_toNat _⟩
  · rw [div32, signOf_eq, signOf_eq]
  · rw [mul32, signOf_eq, signOf_eq]; rfl

/-! ## The range of the percentage -/

/-- Rounding without a sign is monotone, infinity included. -/
theorem rne32_mono {num den num' den' : Nat} (hden : 0 < den) (hden' : 0 < den') (h : num * den' ≤ num' * den) :
    (rne32 false num den).toNat ≤ (rne32 false num' den').toNat := by
  have hr := roundedEncoding_mono hden hden' h
  rw [rne32_toNat, rne32_toNat]
  omega

/-- So are the magnitudes of what is rounded. -/
theorem magnitude_rne32_mono {num den num' den' : Nat} (hden : 0 < den) (hden' : 0 < den')
    (h : num * den' ≤ num' * den) : magnitude (rne32 false num den) ≤ magnitude (rne32 false num' den') := by
  have hr := roundedEncoding_mono hden hden' h
  rw [magnitude_rne32, magnitude_rne32]
  exact encodedValue_strictMono.monotone (by omega)

/-- The percentage of two natural numbers: the quotient rounded, times 100.0 rounded again, no sign anywhere (R178). -/
theorem percent32_natCast {n d : Nat} (hn : n ≤ 255) (hd : d ≤ 255) :
    percent32 n d = rne32 false (magnitude (rne32 false (n * 2 ^ 149) (d * 2 ^ 149)) * magnitude hundred32)
      (2 ^ ulpExp * 2 ^ ulpExp) := by
  have hsign : ∀ k : Nat, signOf (f32 k) = false := fun k => by
    rw [signOf_f32]; exact decide_eq_false (by omega)
  have hmag : ∀ k : Nat, k ≤ 255 → magnitude (f32 k) = k * 2 ^ 149 := fun k hk => magnitude_f32 (n := k) (by omega)
  have hdiv : div32 (f32 n) (f32 d) = rne32 false (n * 2 ^ 149) (d * 2 ^ 149) := by
    rw [div32, hsign, hsign, hmag n hn, hmag d hd]; rfl
  rw [percent32, hdiv, mul32, signOf_rne32]
  rfl

/-- The percentage is monotone in the fraction `n / d` (R178). -/
theorem percent32_mono {n d n' d' : Nat} (hn : n ≤ 255) (hd : d ≤ 255) (hn' : n' ≤ 255) (hd' : d' ≤ 255)
    (hpos : 0 < d) (hpos' : 0 < d') (h : n * d' ≤ n' * d) : (percent32 n d).toNat ≤ (percent32 n' d').toNat := by
  have hunit : 0 < 2 ^ 149 := Nat.two_pow_pos 149
  have hcross : n * 2 ^ 149 * (d' * 2 ^ 149) ≤ n' * 2 ^ 149 * (d * 2 ^ 149) := by
    rw [Nat.mul_mul_mul_comm, Nat.mul_mul_mul_comm n']
    exact Nat.mul_le_mul_right _ h
  have hdiv := magnitude_rne32_mono (Nat.mul_pos hpos hunit) (Nat.mul_pos hpos' hunit) hcross
  have hden : 0 < 2 ^ ulpExp * 2 ^ ulpExp := by decide
  rw [percent32_natCast hn hd, percent32_natCast hn' hd']
  exact rne32_mono hden hden (Nat.mul_le_mul_right _ (Nat.mul_le_mul_right _ hdiv))

/-- Zero is rounded to zero, with either sign (R175). -/
theorem rne32_zero (neg : Bool) {den : Nat} (hden : 0 < den) : (rne32 neg 0 den).toNat = neg.toNat * 2 ^ 31 := by
  have hzero : encodedValue 0 * den = scaled 0 := by
    rw [show encodedValue 0 = 0 by decide, scaled, Nat.zero_mul, Nat.zero_mul]
  rw [rne32_of_exact neg hden (Nat.zero_le _) hzero, Nat.add_zero]

/-- No progress over a negative extent is -0.0 (R178). -/
theorem percent32_zero_of_neg {d : Int} (hd : d < 0) (hsmall : d.natAbs ≤ 255) : percent32 0 d = 0x80000000 := by
  have hden : 0 < d.natAbs * 2 ^ 149 := Nat.mul_pos (by omega) (Nat.two_pow_pos 149)
  have hdiv : div32 (f32 0) (f32 d) = 0x80000000 := by
    apply BitVec.eq_of_toNat_eq
    rw [div32, signOf_f32, signOf_f32, magnitude_f32 (by decide), magnitude_f32 (by omega), Int.natAbs_zero, Nat.zero_mul,
      rne32_zero _ hden, decide_eq_true hd]
    rfl
  rw [percent32, hdiv]
  decide

/-- Settles O48: each bound compares the fraction with one at the end of the range, which evaluates: `1/1` at the stop,
`0/1` at the start, `1/255` the least above the start and `254/255` the greatest below the stop. -/
theorem progressStaysWithinRange : Obligations.ProgressStaysWithinRange := by
  have hstop : (percent32 (1 : Nat) (1 : Nat)).toNat = 0x42C80000 := by decide
  have hstart : (percent32 (0 : Nat) (1 : Nat)).toNat = 0 := by decide
  have hleast : percent32 (1 : Nat) (255 : Nat) ≠ 0 := by decide
  have hgreatest : (percent32 (254 : Nat) (255 : Nat)).toNat < 0x42C80000 := by decide
  refine ⟨fun n d hnd hpos hd => ⟨?_, ⟨fun h => ?_, ?_⟩, ⟨fun h => ?_, ?_⟩⟩, fun m n d hmn hnd hpos hd => ?_,
    fun s hinv habove => ?_⟩
  · have hle := percent32_mono (n := n) (d := d) (n' := 1) (d' := 1) (by omega) hd (by omega) (by omega) hpos (by omega)
      (by omega)
    omega
  · by_contra hne
    have hle := percent32_mono (n := 1) (d := 255) (n' := n) (d' := d) (by omega) (by omega) (by omega) hd (by omega) hpos
      (by omega)
    rw [h] at hle
    exact hleast (BitVec.eq_of_toNat_eq (Nat.le_zero.mp hle))
  · rintro rfl
    have hle := percent32_mono (n := 0) (d := d) (n' := 0) (d' := 1) (by omega) hd (by omega) (by omega) hpos (by omega)
      (by omega)
    exact BitVec.eq_of_toNat_eq (Nat.le_zero.mp (hle.trans_eq hstart))
  · by_contra hne
    have hle := percent32_mono (n := n) (d := d) (n' := 254) (d' := 255) (by omega) hd (by omega) (by omega) hpos
      (by omega) (by omega)
    rw [h] at hle
    exact absurd (hle.trans_lt hgreatest) (by decide)
  · rintro rfl
    have hle := percent32_mono (n := n) (d := n) (n' := 1) (d' := 1) (by omega) hd (by omega) (by omega) hpos (by omega)
      (by omega)
    have hge := percent32_mono (n := 1) (d := 1) (n' := n) (d' := n) (by omega) (by omega) (by omega) hd (by omega) hpos
      (by omega)
    exact BitVec.eq_of_toNat_eq ((Nat.le_antisymm hle hge).trans hstop)
  · exact percent32_mono (by omega) hd (by omega) hd hpos hpos (Nat.mul_le_mul_right _ hmn)
  · have hcur := hinv.curAtStart habove
    have hext : s.swStop ≠ s.swStart := fun h => absurd habove (by rw [h]; exact Nat.lt_irrefl _)
    have hstart := s.swStart.isLt
    rw [exec_prog_of_extent hext, hcur, Int.sub_self, percent32_zero_of_neg (by omega) (by omega)]
    rfl

end Sys2Proof.Machine

/-! SUPPORT. Sweeps over several polls: what each poll adds to a configured sweep, how many steps it takes, where it ends,
and how far apart two steps are (spec/42_sweep.md R172, R173, R177, R179, R181). -/

namespace Sys2Proof.Machine

open Sys2Proof.Laws

/-! ## A configured sweep -/

/-- A step on a presented command executes it at its clock sample (R5). -/
theorem step_asInput {s : State} {i : Instr} {now : Millis} {rest : List HostInput} (hn : s.nUnits ≠ 0)
    (hi : s.inputs = asInput i now :: rest) : step s = exec i { s with inputs := rest, now := now } :=
  step_of_decode_ok hn hi (decode_encode i)

/-- The state in which CFGSWP and then ENSWP 1 leave `s` (R172, R173). -/
def State.sweepEnabled (s : State) (start stop step : BitVec 8) (ivl last : Millis) (rest : List HostInput) : State :=
  { s with swStart := start, swStop := stop, swStep := step, swInterval := ivl, swCur := start, swEn := true,
           swLast := last, now := last, inputs := rest, results := s.results ++ [0, 0] }

/-- Two steps configure and enable a sweep (R172, R173). -/
theorem runSteps_configure_enable {s : State} {start stop step : BitVec 8} {ivl n₀ n₁ : Millis} {rest : List HostInput}
    (k : Nat) (hn : s.nUnits ≠ 0)
    (hi : s.inputs = asInput (.cfgswp start stop step ivl) n₀ :: asInput (.enswp true) n₁ :: rest) :
    runSteps (k + 2) s = runSteps k (s.sweepEnabled start stop step ivl n₁ rest) := by
  rw [runSteps_succ_of_next _ ((step_asInput hn hi).trans (cfgswpConfiguresTheSweep start stop step ivl _))]
  refine Eq.trans (runSteps_succ_of_next k ((step_asInput ?_ rfl).trans (enswpEnablesOrDisables _).1)) ?_
  · exact hn
  simp only [State.sweepEnabled, List.append_assoc, List.cons_append, List.nil_append]

/-! ## One poll -/

/-- The next hue is stored without truncation when it does not pass the stop (R177). -/
theorem cur_add_step_toNat {s : State} (hnext : nextHue s ≤ s.swStop.toNat) :
    (s.swCur + s.swStep).toNat = s.swCur.toNat + s.swStep.toNat := by
  have hstop := s.swStop.isLt
  unfold nextHue at hnext
  rw [BitVec.toNat_add]
  exact Nat.mod_eq_of_lt (by omega)

/-- From `s` to `t` a sweep stepped at the clock sample `now` with the hue offset `off` (R177). -/
structure SteppedTo (off : BitVec 8) (now : Millis) (s t : State) : Prop where
  nUnits : t.nUnits = s.nUnits
  gammaEn : t.gammaEn = s.gammaEn
  intensity : t.intensity = s.intensity
  stop : t.swStop = s.swStop
  step : t.swStep = s.swStep
  interval : t.swInterval = s.swInterval
  enabled : t.swEn = s.swEn
  last : t.swLast = now
  cur : t.swCur.toNat = s.swCur.toNat + s.swStep.toNat
  frames : t.frames = s.frames ++ [t.units]
  shows : LadderedAtHue t.units s.nUnits (BitVec.ofNat 8 (s.swCur.toNat + s.swStep.toNat + off.toNat))
    (gammaGate s.gammaEn s.intensity)

section
variable {s : State} {off : BitVec 8} {now : Millis} {rest : List HostInput}

/-- A step on a POLL at an elapsed tick that does not pass the stop (R177). -/
theorem takesPoll_of_steps (hn : s.nUnits ≠ 0) (hen : s.swEn = true) (hel : s.swInterval.toNat < (now - s.swLast).toNat)
    (hnext : nextHue s ≤ s.swStop.toNat) (hi : s.inputs = asInput (.poll off) now :: rest) :
    ∃ t, TakesPoll s t rest 1 ∧ SteppedTo off now s t := by
  obtain ⟨us, rfl, hexec⟩ := exec_poll_steps (s := { s with inputs := rest, now := now }) off ⟨hen, hel⟩ hnext
  have hhue : BitVec.ofNat 8 (s.swCur.toNat + s.swStep.toNat + off.toNat) = s.swCur + s.swStep + off := by
    simp only [BitVec.ofNat_add, BitVec.ofNat_toNat, BitVec.setWidth_eq]
  refine ⟨_, ⟨(step_poll hn hi).trans hexec, rfl, rfl⟩, hvUnits_length _ _ _, rfl, rfl, rfl, rfl, rfl, rfl, rfl,
    cur_add_step_toNat hnext, rfl, ?_⟩
  rw [hhue]
  exact hvUnits_ladderedAtHue _ _ _

/-- A step on a POLL at an elapsed tick that would pass the stop (R177). -/
theorem takesPoll_of_finishes (hn : s.nUnits ≠ 0) (hen : s.swEn = true)
    (hel : s.swInterval.toNat < (now - s.swLast).toNat) (hpast : s.swStop.toNat < nextHue s)
    (hi : s.inputs = asInput (.poll off) now :: rest) :
    TakesPoll s
      { s with inputs := rest, now := now, swEn := false, swLast := now, results := s.results ++ [2] } rest 2 :=
  ⟨(step_poll hn hi).trans
      (exec_poll_finishes (s := { s with inputs := rest, now := now }) off ⟨hen, hel⟩ hpast), rfl, rfl⟩

/-- A step on a POLL of a Disabled sweep (R180). -/
theorem takesPoll_of_disabled (hn : s.nUnits ≠ 0) (hdis : s.swEn = false)
    (hi : s.inputs = asInput (.poll off) now :: rest) :
    TakesPoll s { s with inputs := rest, now := now, results := s.results ++ [0] } rest 0 :=
  ⟨step_poll_of_disabled hn hdis hi, rfl, rfl⟩

end

/-! ## Counting the outcomes -/

/-- After the polls that returned `rs` on top of `base`, starting with `emitted` frames: each Stepped has moved the hue by
one step and emitted one frame, and the sweep is Disabled exactly after its one Finished, past which no step fits. -/
structure SweepSoFar (start stop step : BitVec 8) (base : List Word) (emitted : Nat) (rs : List Word) (s : State) :
    Prop where
  hasUnit : s.nUnits ≠ 0
  stop_eq : s.swStop = stop
  step_eq : s.swStep = step
  results : s.results = base ++ rs
  cur : s.swCur.toNat = start.toNat + rs.count 1 * step.toNat
  frames : s.frames.length = emitted + rs.count 1
  inRange : rs.count 1 = 0 ∨ s.swCur.toNat ≤ stop.toNat
  enabled : s.swEn = true → rs.count 2 = 0
  disabled : s.swEn = false → rs.count 2 = 1 ∧ stop.toNat < s.swCur.toNat + step.toNat

section
variable {start stop step off : BitVec 8} {base rs : List Word} {emitted : Nat} {s : State} {now : Millis}
  {rest : List HostInput}

/-- A configured and enabled sweep has not stepped yet. -/
theorem sweepSoFar_of_sweepEnabled {ivl last : Millis} (hn : s.nUnits ≠ 0) :
    SweepSoFar start stop step (s.results ++ [0, 0]) s.frames.length []
      (s.sweepEnabled start stop step ivl last rest) where
  hasUnit := hn
  stop_eq := rfl
  step_eq := rfl
  results := (List.append_nil _).symm
  cur := by simp [State.sweepEnabled]
  frames := rfl
  inRange := .inl rfl
  enabled _ := rfl
  disabled := nofun

/-- An Idle or Waiting answer adds to neither count. -/
theorem SweepSoFar.of_observed (hs : SweepSoFar start stop step base emitted rs s) (rest : List HostInput) (now : Millis)
    {w : Word} (hw₁ : w ≠ 1) (hw₂ : w ≠ 2) :
    SweepSoFar start stop step base emitted (rs ++ [w])
      { s with inputs := rest, now := now, results := s.results ++ [w] } := by
  have hcount : ∀ v, w ≠ v → (rs ++ [w]).count v = rs.count v := fun v hv => by
    rw [List.count_append, List.count_singleton, if_neg (by simpa using hv), Nat.add_zero]
  have hresults : s.results ++ [w] = base ++ (rs ++ [w]) := by rw [hs.results, List.append_assoc]
  refine ⟨hs.hasUnit, hs.stop_eq, hs.step_eq, hresults, ?_, ?_, ?_, ?_, ?_⟩
  · rw [hcount 1 hw₁]; exact hs.cur
  · rw [hcount 1 hw₁]; exact hs.frames
  · rw [hcount 1 hw₁]; exact hs.inRange
  · rw [hcount 2 hw₂]; exact hs.enabled
  · rw [hcount 2 hw₂]; exact hs.disabled

/-- Any poll of a sweep so far answers, and adds its outcome to the counts (R177). -/
theorem SweepSoFar.takesPoll (hs : SweepSoFar start stop step base emitted rs s)
    (hi : s.inputs = asInput (.poll off) now :: rest) :
    ∃ t w, TakesPoll s t rest w ∧ SweepSoFar start stop step base emitted (rs ++ [w]) t := by
  obtain hdis | ⟨hen, hwait⟩ | ⟨⟨hen, hel⟩, hnext⟩ | ⟨⟨hen, hel⟩, hpast⟩ :=
    poll_state_cases { s with inputs := rest, now := now }
  · exact ⟨_, 0, takesPoll_of_disabled hs.hasUnit hdis hi, hs.of_observed rest now (by decide) (by decide)⟩
  · exact ⟨_, 3, takesPoll_of_not_elapsed hs.hasUnit hen hwait hi, hs.of_observed rest now (by decide) (by decide)⟩
  · obtain ⟨t, hpoll, ht⟩ := takesPoll_of_steps hs.hasUnit hen hel hnext hi
    have hone : (rs ++ [1]).count 1 = rs.count 1 + 1 := by rw [List.count_append, List.count_singleton_self]
    have htwo : (rs ++ [1]).count 2 = rs.count 2 := by rw [List.count_append]; rfl
    refine ⟨t, 1, hpoll, ht.nUnits.trans_ne hs.hasUnit, ht.stop.trans hs.stop_eq, ht.step.trans hs.step_eq, ?_, ?_, ?_,
      ?_, ?_, ?_⟩
    · rw [hpoll.results, hs.results, List.append_assoc]
    · rw [hone, Nat.succ_mul, ← Nat.add_assoc, ← hs.cur, ← hs.step_eq]; exact ht.cur
    · rw [hone, ht.frames, List.length_append, hs.frames]; rfl
    · rw [← hs.stop_eq, ht.cur]; exact .inr hnext
    · rw [htwo, ht.enabled]; exact hs.enabled
    · exact fun hdis => absurd (hen.symm.trans (ht.enabled.symm.trans hdis)) nofun
  · have hone : (rs ++ [2]).count 1 = rs.count 1 := by rw [List.count_append]; rfl
    have htwo : (rs ++ [2]).count 2 = rs.count 2 + 1 := by rw [List.count_append, List.count_singleton_self]
    refine ⟨_, 2, takesPoll_of_finishes hs.hasUnit hen hel hpast hi, hs.hasUnit, hs.stop_eq, hs.step_eq, ?_, ?_, ?_, ?_,
      nofun, fun _ => ⟨?_, ?_⟩⟩
    · change s.results ++ [2] = _
      rw [hs.results, List.append_assoc]
    · rw [hone]; exact hs.cur
    · rw [hone]; exact hs.frames
    · rw [hone]; exact hs.inRange
    · rw [htwo, hs.enabled hen]
    · rw [← hs.stop_eq, ← hs.step_eq]; exact hpast

/-- A sweep that has ended has taken every step that fits between the start and the stop (R179). -/
theorem SweepSoFar.count_stepped (hs : SweepSoFar start stop step base emitted rs s) (hdis : s.swEn = false)
    (hstep : 0 < step.toNat) : rs.count 1 = (stop.toNat - start.toNat) / step.toNat := by
  obtain ⟨-, hpast⟩ := hs.disabled hdis
  have hcur := hs.cur
  have hrange := hs.inRange
  refine (Nat.div_eq_of_lt_le ?_ ?_).symm
  · obtain hzero | hle := hrange
    · rw [hzero, Nat.zero_mul]; exact Nat.zero_le _
    · omega
  · rw [Nat.succ_mul]
    omega

end

/-- Settles O52: every poll keeps the account of the outcomes, whatever its time. -/
theorem sweepCountsItsSteps : Obligations.SweepCountsItsSteps := by
  intro s start stop step ivl n₀ n₁ xs hn hi
  obtain ⟨t, rs, hrun, hres, ⟨rs', ht⟩, hlen, -⟩ := runSteps_polls_of_kept (W := fun _ => True)
    (Keeps := fun s' _ => ∃ rs, SweepSoFar start stop step (s.results ++ [0, 0]) s.frames.length rs s')
    (fun s' off now _ ⟨rs, hs⟩ hi => by
      obtain ⟨t, w, hpoll, ht⟩ := hs.takesPoll hi
      exact ⟨t, w, hpoll, ⟨_, ht⟩, trivial⟩)
    xs ⟨[], sweepSoFar_of_sweepEnabled (ivl := ivl) (last := n₁) (rest := polls xs) hn⟩ rfl
  obtain rfl : rs' = rs := List.append_cancel_left (ht.results.symm.trans hres)
  exact ⟨t, rs', (runSteps_configure_enable _ hn hi).trans hrun, ht.results, hlen, ht.cur, ht.frames, ht.enabled,
    fun hdis => ⟨(ht.disabled hdis).1, ht.count_stepped hdis⟩⟩

/-! ## A sweep polled at every tick -/

/-- The frames `fs` show a dimmer at the hues that follow `c` by `step`, each with its poll's offset (R177, R179). -/
def ShowsHues (n : Nat) (vv : Intensity) (c step : Nat) (xs : List (BitVec 8 × Millis)) (fs : List Frame) : Prop :=
  ∀ j off now, j < fs.length → xs[j]? = some (off, now) →
    ∃ us, fs[j]? = some us ∧ LadderedAtHue us n (BitVec.ofNat 8 (c + step * (j + 1) + off.toNat)) vv

/-- One frame more in front, at the first hue. -/
theorem ShowsHues.cons {n c step : Nat} {vv : Intensity} {x : BitVec 8 × Millis} {xs : List (BitVec 8 × Millis)}
    {us : Frame} {fs : List Frame} (hus : LadderedAtHue us n (BitVec.ofNat 8 (c + step + x.1.toNat)) vv)
    (hfs : ShowsHues n vv (c + step) step xs fs) : ShowsHues n vv c step (x :: xs) (us :: fs) := by
  intro j off now hj hx
  cases j with
  | zero =>
    cases hx
    exact ⟨us, rfl, by rw [Nat.zero_add, Nat.mul_one]; exact hus⟩
  | succ j =>
    obtain ⟨us', hus', hlad⟩ := hfs j off now (Nat.lt_of_succ_lt_succ hj) hx
    refine ⟨us', hus', ?_⟩
    rwa [show c + step * (j + 1 + 1) = c + step + step * (j + 1) by ring]

/-- From `s` to `t` a sweep took `k` steps, with the frames `fs`, and finished (R179). -/
structure EndsAfter (k : Nat) (fs : List Frame) (s t : State) : Prop where
  results : t.results = s.results ++ List.replicate k 1 ++ [2]
  disabled : t.swEn = false
  cur : t.swCur.toNat = s.swCur.toNat + k * s.swStep.toNat
  frames : t.frames = s.frames ++ fs
  length : fs.length = k

/-- `k` steps fit between the current hue and the stop, and no more (R179). -/
def StepsLeft (k : Nat) (s : State) : Prop :=
  (k = 0 ∨ s.swCur.toNat + k * s.swStep.toNat ≤ s.swStop.toNat)
    ∧ s.swStop.toNat < s.swCur.toNat + (k + 1) * s.swStep.toNat

/-- The first of the steps left does not pass the stop, and one fewer is left after it. -/
theorem StepsLeft.nextHue_le {k : Nat} {s : State} (h : StepsLeft (k + 1) s) : nextHue s ≤ s.swStop.toNat := by
  obtain ⟨hfits, -⟩ := h
  have hmul := Nat.add_one_mul k s.swStep.toNat
  unfold nextHue
  omega

theorem StepsLeft.of_stepped {k : Nat} {s t : State} (h : StepsLeft (k + 1) s) {off : BitVec 8} {now : Millis}
    (ht : SteppedTo off now s t) : StepsLeft k t := by
  obtain ⟨hfits, hend⟩ := h
  have hmul := Nat.add_one_mul k s.swStep.toNat
  have hmul' := Nat.add_one_mul (k + 1) s.swStep.toNat
  unfold StepsLeft
  rw [ht.cur, ht.stop, ht.step]
  omega

/-- An Enabled sweep polled at elapsed ticks takes the steps that are left and finishes (R179). -/
theorem runSteps_ticks (k : Nat) {xs : List (BitVec 8 × Millis)} {s : State} (hn : s.nUnits ≠ 0) (hen : s.swEn = true)
    (hleft : StepsLeft k s) (hlen : xs.length = k + 1) (hticks : Ticking s.swInterval s.swLast (xs.map Prod.snd))
    (hi : s.inputs = polls xs) :
    ∃ t fs, runSteps (k + 1) s = .next t ∧ EndsAfter k fs s t
      ∧ ShowsHues s.nUnits (gammaGate s.gammaEn s.intensity) s.swCur.toNat s.swStep.toNat xs fs := by
  induction k generalizing xs s with
  | zero =>
    obtain ⟨⟨off, now⟩, rfl⟩ := List.length_eq_one_iff.mp hlen
    obtain ⟨-, hpast⟩ := hleft
    have hpoll := takesPoll_of_finishes hn hen hticks.1 (by unfold nextHue; omega) hi
    exact ⟨_, [], runSteps_succ_of_next 0 hpoll.steps, ⟨by simp, rfl, by simp, by simp, rfl⟩, nofun⟩
  | succ k ih =>
    obtain ⟨⟨off, now⟩, xs, rfl⟩ := List.exists_cons_of_length_eq_add_one hlen
    obtain ⟨hel, hlater⟩ := hticks
    have hnext := hleft.nextHue_le
    obtain ⟨u, hpoll, hu⟩ := takesPoll_of_steps hn hen hel hleft.nextHue_le hi
    obtain ⟨t, fs, hrun, hend, hshows⟩ := ih (hu.nUnits.trans_ne hn) (hu.enabled.trans hen) (hleft.of_stepped hu)
      (Nat.succ.inj hlen) (by rw [hu.interval, hu.last]; exact hlater) hpoll.inputs
    refine ⟨t, u.units :: fs, (runSteps_succ_of_next _ hpoll.steps).trans hrun, ⟨?_, hend.disabled, ?_, ?_, ?_⟩, ?_⟩
    · rw [hend.results, hpoll.results, List.replicate_succ]
      simp only [List.append_assoc, List.cons_append, List.nil_append]
    · rw [hend.cur, hu.cur, hu.step, Nat.add_one_mul]
      omega
    · rw [hend.frames, hu.frames, List.append_assoc, List.singleton_append]
    · rw [List.length_cons, hend.length]
    · rw [hu.nUnits, hu.gammaEn, hu.intensity, hu.cur, hu.step] at hshows
      exact .cons hu.shows hshows

/-- The quotient is the number of steps that fit between the start and the stop (R179). -/
theorem stepsLeft_quotient {s : State} (hstep : 0 < s.swStep.toNat) :
    StepsLeft ((s.swStop.toNat - s.swCur.toNat) / s.swStep.toNat) s := by
  have hle := Nat.div_mul_le_self (s.swStop.toNat - s.swCur.toNat) s.swStep.toNat
  have hlt := Nat.lt_mul_div_succ (s.swStop.toNat - s.swCur.toNat) hstep
  rw [Nat.mul_comm] at hlt
  refine ⟨?_, by omega⟩
  obtain hzero | hpos := Nat.eq_zero_or_pos ((s.swStop.toNat - s.swCur.toNat) / s.swStep.toNat)
  · exact .inl hzero
  · have hsome := Nat.mul_le_mul_right s.swStep.toNat hpos
    exact .inr (by omega)

/-- Settles O53: two steps set the sweep up, and the ticks then take the steps that are left. -/
theorem sweepTerminates : Obligations.SweepTerminates := by
  rintro s start stop step ivl n₀ n₁ xs k hn hstep rfl hlen hticks hi
  obtain ⟨t, fs, hrun, hend, hshows⟩ := runSteps_ticks _ (s := s.sweepEnabled start stop step ivl n₁ (polls xs)) hn rfl
    (stepsLeft_quotient hstep) hlen hticks rfl
  refine ⟨t, (runSteps_configure_enable _ hn hi).trans hrun, hend.results, hend.disabled, hend.cur, ?_, ?_⟩
  · rw [hend.frames, List.length_append, hend.length]; rfl
  · intro j off now hj hx
    obtain ⟨us, hus, hlad⟩ := hshows j off now (hj.trans_eq hend.length.symm) hx
    refine ⟨us, ?_, hlad⟩
    rw [hend.frames]
    exact (List.getElem?_append_right (Nat.le_add_right _ _)).trans (by rw [Nat.add_sub_cancel_left]; exact hus)

/-! ## The rate of the steps -/

/-- The inversion of a run that goes on: its first step, and the rest. -/
theorem runSteps_succ_next {k : Nat} {s u : State} (h : runSteps (k + 1) s = .next u) :
    ∃ t, step s = .next t ∧ runSteps k t = .next u := by
  rw [runSteps] at h
  cases hs : step s with
  | next t =>
    rw [hs] at h
    exact ⟨t, rfl, h⟩
  | fault r => cases r
  | refused r =>
    rw [hs] at h
    cases h

/-- A step adds to the results and takes none back (R78). -/
theorem step_results {s t : State} (h : step s = .next t) : ∃ ws, t.results = s.results ++ ws := by
  obtain ⟨-, ⟨-, rfl⟩ | ⟨rest, -, rfl⟩ | ⟨cmd, now, rest, i, -, -, he⟩ | ⟨cmd, now, rest, e, -, -, rfl⟩⟩ := step_cases h
  · exact ⟨[], (List.append_nil _).symm⟩
  · exact ⟨[], (List.append_nil _).symm⟩
  · obtain ⟨res, hres⟩ := (exec_answersOnce he).oneResult
    exact ⟨[res], hres⟩
  · exact ⟨[_], rfl⟩

/-- So does a run. -/
theorem runSteps_results {k : Nat} {s u : State} (h : runSteps k s = .next u) : ∃ ws, u.results = s.results ++ ws := by
  induction k generalizing s with
  | zero =>
    cases h
    exact ⟨[], (List.append_nil _).symm⟩
  | succ k ih =>
    obtain ⟨t, ht, hrun⟩ := runSteps_succ_next h
    obtain ⟨ws, hws⟩ := step_results ht
    obtain ⟨ws', hws'⟩ := ih hrun
    exact ⟨ws ++ ws', by rw [hws', hws, List.append_assoc]⟩

section
variable {s t u : State} {off : BitVec 8} {now : Millis} {rest : List HostInput} {k : Nat} {w : Word} {ws : List Word}

/-- A run that takes a poll first: the first word it adds is that poll's. -/
theorem runSteps_takesPoll (hi : s.inputs = asInput (.poll off) now :: rest) (hrun : runSteps (k + 1) s = .next u)
    (hres : u.results = s.results ++ w :: ws) :
    ∃ t, TakesPoll s t rest w ∧ runSteps k t = .next u ∧ u.results = t.results ++ ws := by
  obtain ⟨t, hstep, hrest⟩ := runSteps_succ_next hrun
  obtain ⟨hn, -⟩ := step_cases hstep
  obtain ⟨t', hstep', hin, ⟨res, hone⟩, -⟩ := step_command_answersOnce hn hi
  cases hstep'.symm.trans hstep
  obtain ⟨ws', hws'⟩ := runSteps_results hrest
  have hsame : res :: ws' = w :: ws := by
    refine List.append_cancel_left (as := s.results) ?_
    rw [← hres, hws', hone, List.append_assoc, List.singleton_append]
  obtain ⟨rfl, rfl⟩ := List.cons.inj hsame
  exact ⟨t, ⟨hstep, hin, hone⟩, hrest, hws'⟩

/-- What a poll was executed as. -/
theorem TakesPoll.exec_poll (hi : s.inputs = asInput (.poll off) now :: rest) (h : TakesPoll s t rest w) :
    exec (.poll off) { s with inputs := rest, now := now } = .next t := by
  obtain ⟨hn, -⟩ := step_cases h.steps
  exact (step_poll hn hi).symm.trans h.steps

/-- A poll that returned Stepped came more than the interval after the stamp, and stamped (R177). -/
theorem TakesPoll.stepped (hi : s.inputs = asInput (.poll off) now :: rest) (h : TakesPoll s t rest 1) :
    s.swInterval.toNat < (now - s.swLast).toNat ∧ t.swLast = now ∧ t.swInterval = s.swInterval := by
  have hres := h.results
  obtain ⟨-, rfl⟩ | ⟨-, rfl⟩ | ⟨⟨-, hel⟩, -, us, -, rfl⟩ | ⟨-, -, rfl⟩ := exec_poll_cases (h.exec_poll hi)
  · exact absurd (List.append_cancel_left hres) (by decide)
  · exact absurd (List.append_cancel_left hres) (by decide)
  · exact ⟨hel, rfl, rfl⟩
  · exact absurd (List.append_cancel_left hres) (by decide)

/-- A poll that returned Waiting kept the stamp and the interval (R180). -/
theorem TakesPoll.waited (hi : s.inputs = asInput (.poll off) now :: rest) (h : TakesPoll s t rest 3) :
    t.swLast = s.swLast ∧ t.swInterval = s.swInterval := by
  have hres := h.results
  obtain ⟨-, rfl⟩ | ⟨-, rfl⟩ | ⟨-, -, us, -, rfl⟩ | ⟨-, -, rfl⟩ := exec_poll_cases (h.exec_poll hi)
  · exact absurd (List.append_cancel_left hres) (by decide)
  · exact ⟨rfl, rfl⟩
  · exact absurd (List.append_cancel_left hres) (by decide)
  · exact absurd (List.append_cancel_left hres) (by decide)

end

/-- Any number of polls that returned Waiting keep the stamp and the interval (R180). -/
theorem runSteps_waits {xs : List (BitVec 8 × Millis)} {s u : State} {rest : List HostInput} {k : Nat} {ws : List Word}
    (hi : s.inputs = polls xs ++ rest) (hrun : runSteps (xs.length + k) s = .next u)
    (hres : u.results = s.results ++ (List.replicate xs.length 3 ++ ws)) :
    ∃ t, t.inputs = rest ∧ t.swLast = s.swLast ∧ t.swInterval = s.swInterval ∧ runSteps k t = .next u
      ∧ u.results = t.results ++ ws := by
  induction xs generalizing s with
  | nil =>
    rw [List.length_nil, Nat.zero_add] at hrun
    exact ⟨s, hi, rfl, rfl, hrun, hres⟩
  | cons x xs ih =>
    rw [List.length_cons, Nat.add_right_comm] at hrun
    obtain ⟨v, hpoll, hrest, hresv⟩ := runSteps_takesPoll hi hrun hres
    obtain ⟨hlast, hivl⟩ := hpoll.waited hi
    obtain ⟨t, hin, hlast', hivl', hk, hrest'⟩ := ih hpoll.inputs hrest hresv
    exact ⟨t, hin, hlast'.trans hlast, hivl'.trans hivl, hk, hrest'⟩

/-- Settles O55: the first step stamps, the waiting polls keep the stamp, and the second step finds it more than the
interval old. -/
theorem stepRateIsBounded : Obligations.StepRateIsBounded := by
  intro s u xs a b t₁ t₂ hi hrun hres hlt
  rw [List.append_assoc, List.append_assoc, List.singleton_append] at hres
  obtain ⟨v, hfirst, hrun', hres'⟩ := runSteps_takesPoll (rest := polls xs ++ [asInput (.poll b) t₂]) hi hrun hres
  obtain ⟨-, hlast, hivl⟩ := hfirst.stepped hi
  obtain ⟨t, hin, hlast', hivl', hrun'', hres''⟩ := runSteps_waits hfirst.inputs hrun' hres'
  obtain ⟨v', hsecond, -, -⟩ := runSteps_takesPoll hin hrun'' hres''
  obtain ⟨hel, -, -⟩ := hsecond.stepped hin
  rw [hlast', hlast, hivl', hivl, BitVec.toNat_sub] at hel
  omega

end Sys2Proof.Machine
